-- ==== Sys2Proof/Word.lean ====
section
/-! DEFINITION. The word types of CORE (00_scope.md rule R8): bit vectors for what the spec treats as bits. -/

namespace Sys2Proof

/-- One byte of a bus transaction or of the frame buffer. -/
abbrev Byte := BitVec 8

/-- A 16-bit quantity: a command code (R49), a raw word (R24) or the status word (R53). -/
abbrev Half := BitVec 16

/-- A 32-bit output word: `TEMP_OUT`, `HUM_OUT`, `rsp_data` (R20, R21, R56). -/
abbrev Word := BitVec 32

end Sys2Proof
end

