-- ==== Sys2Proof/Syntax.lean ====
section
/-! DEFINITION. The instructions: the eleven command codes (30_encoding.md rule R50) and the two host requests (R55).
None of them has an operand, so each constructor is nullary. -/

namespace Sys2Proof

/-- One constructor per row of spec/opcode_table.json. -/
inductive Instr where
  /-- `SOFT_RESET`, 0x30A2 (R65). -/
  | softReset
  /-- `READ_STATUS`, 0xF32D (R66). -/
  | readStatus
  /-- `MEAS_HIGH_POLL`, 0x2400 (R67). -/
  | measHighPoll
  /-- `CLEAR_STATUS`, 0x3041 (R68). -/
  | clearStatus
  /-- `MEAS_HIGH_STRETCH`, 0x2C06 (R69). -/
  | measHighStretch
  /-- `MEAS_MED_POLL`, 0x240B (R70). -/
  | measMedPoll
  /-- `MEAS_MED_STRETCH`, 0x2C0D (R71). -/
  | measMedStretch
  /-- `MEAS_LOW_POLL`, 0x2416 (R72). -/
  | measLowPoll
  /-- `MEAS_LOW_STRETCH`, 0x2C10 (R73). -/
  | measLowStretch
  /-- `HEATER_ENABLE`, 0x306D (R74). -/
  | heaterEnable
  /-- `HEATER_DISABLE`, 0x3066 (R75). -/
  | heaterDisable
  /-- `RDT`, host request with `req_op = 0` (R118). -/
  | rdt
  /-- `RDH`, host request with `req_op = 1` (R119). -/
  | rdh
deriving DecidableEq, Repr

/-- The two formats an instruction is written in: a bus command (`CMD16`, R49) or a host request (`REQ1`, R54). -/
inductive Format where
  | cmd16
  | req1
deriving DecidableEq, Repr

/-- Why a string of bytes is no instruction. -/
inductive DecodeReject where
  /-- A 16-bit value outside the closed set of R50 (R60(a)). -/
  | notACommand (code : Half)
  /-- A byte with a bit set above bit 0, the only bit of the request port (R54, log entry 12). -/
  | notARequest (byte : Byte)
  /-- Neither one byte (`REQ1`) nor two (`CMD16`): there are no other lengths (R61). -/
  | badLength (n : Nat)
deriving DecidableEq, Repr

end Sys2Proof
end

