-- ==== Sys2Proof/WellFormed.lean ====
section
/-! DEFINITION. Well-formedness. An instruction of CORE has no operand (R49: "no internal structure beyond their bit
pattern"; R55: one bit, both values legal), so every term of `Instr` is well formed and the checks are on the words: the
length of a format (R61), the one bit of a request (R54) and the closed set of command codes (R60). -/

namespace Sys2Proof

/-- The format of an instruction. -/
def Instr.format : Instr → Format
  | .softReset => .cmd16
  | .readStatus => .cmd16
  | .measHighPoll => .cmd16
  | .clearStatus => .cmd16
  | .measHighStretch => .cmd16
  | .measMedPoll => .cmd16
  | .measMedStretch => .cmd16
  | .measLowPoll => .cmd16
  | .measLowStretch => .cmd16
  | .heaterEnable => .cmd16
  | .heaterDisable => .cmd16
  | .rdt => .req1
  | .rdh => .req1

/-- Whether a state of the sequencer emits the command (R50, column "emitted by CORE"); a request is never emitted. -/
def Instr.emitted : Instr → Bool
  | .softReset => true
  | .readStatus => true
  | .measHighPoll => true
  | .clearStatus => false
  | .measHighStretch => false
  | .measMedPoll => false
  | .measMedStretch => false
  | .measLowPoll => false
  | .measLowStretch => false
  | .heaterEnable => false
  | .heaterDisable => false
  | .rdt => false
  | .rdh => false

/-- The eleven 16-bit values of the closed set (R50, R60(a)), in the order of the document. -/
def commandCodes : List Half :=
  [0x30A2, 0xF32D, 0x3041, 0x2400, 0x2C06, 0x240B, 0x2C0D, 0x2416, 0x2C10, 0x306D, 0x3066]

/-- Check: a word has the length of a format, two bytes for `CMD16` and one for `REQ1` (R61). -/
def wellFormedLength (f : Format) (bytes : List Byte) : Bool :=
  match f with
  | .cmd16 => bytes.length == 2
  | .req1 => bytes.length == 1

/-- Check: a request has nothing above its one bit (R54). -/
def wellFormedRequest (byte : Byte) : Bool := byte.toNat < 2

/-- Check: a command code is of the closed set (R60(a)). -/
def wellFormedCommand (code : Half) : Bool := commandCodes.contains code

/-- All three checks on the bytes of an instruction. -/
def wellFormedBytes : List Byte → Bool
  | [b] => wellFormedLength .req1 [b] && wellFormedRequest b
  | [b0, b1] => wellFormedLength .cmd16 [b0, b1] && wellFormedCommand (b0 ++ b1)
  | _ => false

end Sys2Proof
end

