-- ==== Sys2Proof/Decode.lean ====
section
/-! DEFINITION. The decoder, total on any bytes, and the encoder (30_encoding.md rules R49, R50, R54, R55, R60). A command is
two bytes, most significant first (R38(a), R49); a request is one byte whose bit 0 is `req_op` (R54, log entry 12). -/

namespace Sys2Proof

/-- The code table of R50. -/
def commandTable : List (Half × Instr) :=
  [ (0x30A2, .softReset),
    (0xF32D, .readStatus),
    (0x2400, .measHighPoll),
    (0x3041, .clearStatus),
    (0x2C06, .measHighStretch),
    (0x240B, .measMedPoll),
    (0x2C0D, .measMedStretch),
    (0x2416, .measLowPoll),
    (0x2C10, .measLowStretch),
    (0x306D, .heaterEnable),
    (0x3066, .heaterDisable) ]

/-- The command with a given code, if the code is of the closed set (R60(a)). -/
def commandOf (code : Half) : Option Instr := commandTable.lookup code

/-- The request with a given `req_op` (R55): both values of the one bit are legal. -/
def requestOf (op : BitVec 1) : Instr := if op = 0 then .rdt else .rdh

/-- Decoding of a request byte: bit 0 is `req_op`, and the port has no other bit (R54). -/
def decodeRequest (byte : Byte) : Except DecodeReject Instr :=
  if byte.toNat < 2 then .ok (requestOf (byte.setWidth 1)) else .error (.notARequest byte)

/-- Decoding of a command code (R50). -/
def decodeCommand (code : Half) : Except DecodeReject Instr :=
  match commandOf code with
  | some i => .ok i
  | none => .error (.notACommand code)

/-- The decoder. The two formats differ in length (R61), so no word has two readings. -/
def decode : List Byte → Except DecodeReject Instr
  | [b] => decodeRequest b
  | [b0, b1] => decodeCommand (b0 ++ b1)
  | bytes => .error (.badLength bytes.length)

/-- The code of a command (R50), and none for a request, which is no bus command. -/
def Instr.commandCode : Instr → Option Half
  | .softReset => some 0x30A2
  | .readStatus => some 0xF32D
  | .measHighPoll => some 0x2400
  | .clearStatus => some 0x3041
  | .measHighStretch => some 0x2C06
  | .measMedPoll => some 0x240B
  | .measMedStretch => some 0x2C0D
  | .measLowPoll => some 0x2416
  | .measLowStretch => some 0x2C10
  | .heaterEnable => some 0x306D
  | .heaterDisable => some 0x3066
  | .rdt => none
  | .rdh => none

/-- The two bytes of a command, most significant first (R49: byte 0 is `code[15:8]`, byte 1 is `code[7:0]`). -/
def commandBytes (code : Half) : List Byte := [code.extractLsb' 8 8, code.extractLsb' 0 8]

/-- The byte of a request: `req_op` in bit 0, zeros above it. -/
def requestByte (op : BitVec 1) : Byte := op.setWidth 8

/-- The encoder. -/
def encode (i : Instr) : List Byte :=
  match i.commandCode with
  | some code => commandBytes code
  | none => [requestByte (if i = .rdh then 1 else 0)]

/-- The bytes of a word numbered as spec/opcode_table.json numbers it: a row of at most 8 bits is a request byte, a row of
at most 16 bits is a command code, laid out most significant byte first. No row is longer. -/
def tableBytes (nbits w : Nat) : Option (List Byte) :=
  if nbits ≤ 8 then (if w < 2 ^ 8 then some [BitVec.ofNat 8 w] else none)
  else if nbits ≤ 16 then (if w < 2 ^ 16 then some [BitVec.ofNat 8 (w / 2 ^ 8), BitVec.ofNat 8 (w % 2 ^ 8)] else none)
  else none

/-- What the decoder reads from a word of the opcode table. -/
def decodeTableWord (nbits w : Nat) : Option Instr :=
  match tableBytes nbits w with
  | none => none
  | some bytes =>
    match decode bytes with
    | .ok i => some i
    | .error _ => none

end Sys2Proof
end

