-- ==== Sys2Proof/Config.lean ====
section
/-! DEFINITION. What the spec leaves to the implementation or to the outside world (00_scope.md rule R7): the open
parameters, and the free values. Each is an opaque constant without a body, so a claim that holds of it holds
whatever it is. -/

namespace Sys2Proof.Config

/-- `MEAS_SETTLE_TICKS`, the load value of the measurement settle wait (R7, R147). Open parameter: log entry 16. -/
opaque measSettleTicks : Nat

/-- `RESET_SETTLE_TICKS`, the load value of the wait after the soft-reset command (R7, R148). Open parameter: log entry 16. -/
opaque resetSettleTicks : Nat

/-- By how much `DLY_W` exceeds the least width that holds both load values. Open parameter: log entry 7. -/
opaque dlyWSpare : Nat

/-- The least width that holds n: the least w with `n < 2^w`, which is 0 for 0. -/
def leastWidth (n : Nat) : Nat := if n = 0 then 0 else Nat.log2 n + 1

/-- `DLY_W`, the width of the delay counter. It ranges over exactly the widths R7 admits, those with
`2^DLY_W > max(MEAS_SETTLE_TICKS, RESET_SETTLE_TICKS)` (log entry 7). -/
def dlyW : Nat := leastWidth (max measSettleTicks resetSettleTicks) + dlyWSpare

/-- A square root of `F_CLK`, either one. Open parameter: log entry 16. -/
opaque fClkRoot : ℝˣ

/-- `F_CLK`, the clock frequency in hertz, any positive value (R7): the squares of the nonzero reals are exactly the
positive reals. No rule of the model depends on it. -/
def fClk : ℝ := fClkRoot.val * fClkRoot.val

/-- `T_MEAS`, the sensor's worst-case conversion time in seconds (R147), a parameter of the platform. -/
opaque tMeas : ℝ

/-- `T_RESET`, the time in seconds the sensor needs after a soft reset (R148), a parameter of the platform. -/
opaque tReset : ℝ

/-- The constraint of R147 on the platform: the measurement wait is as long as the sensor needs. A premise for claims
about the sensor; no rule of CORE depends on it (R146). -/
def MeasWaitLongEnough : Prop := tMeas ≤ ((measSettleTicks : ℝ) + 1) / fClk

/-- The constraint of R148 on the platform: the wait after the soft reset is as long as the sensor needs. -/
def ResetWaitLongEnough : Prop := tReset ≤ ((resetSettleTicks : ℝ) + 1) / fClk

/-! The input pins in the steps for which no sample has been placed (R77: the only non-determinism of a run is in the
inputs; R35: the received bytes are oracle answers). Each takes the number of the step: log entry 1. -/

/-- `rst` in a step without a placed sample. -/
opaque freeRst : Nat → Bool
/-- `req_valid` in a step without a placed sample. -/
opaque freeReqValid : Nat → Bool
/-- `req_op` in a step without a placed sample. -/
opaque freeReqOp : Nat → BitVec 1
/-- `cmd_done` in a step without a placed sample. -/
opaque freeCmdDone : Nat → Bool
/-- `rx_valid` in a step without a placed sample. -/
opaque freeRxValid : Nat → Bool
/-- `rx_data` in a step without a placed sample. -/
opaque freeRxData : Nat → Byte

/-! What the registers hold that a reset step leaves unspecified (R29, R140): log entry 3. Each takes the number of
the step in which `rst` was sampled. -/

/-- `FRAME[i]` after a reset step: the step's number, then the index i. -/
opaque unspecFrame : Nat → Nat → Byte
/-- `REQ_Q` after a reset step. -/
opaque unspecReqQ : Nat → BitVec 1
/-- `STATUS` after a reset step. -/
opaque unspecStatus : Nat → Half
/-- `TEMP_OUT` after a reset step. -/
opaque unspecTempOut : Nat → Word
/-- `HUM_OUT` after a reset step. -/
opaque unspecHumOut : Nat → Word

end Sys2Proof.Config
end

