-- ==== Sys2Proof/Machine/State.lean ====
section
/-! DEFINITION. The state of CORE (10_state.md): the ten registers of R13 as plain data, and beside them the four fields of
the model's own (the placed input samples, the step number, the integrator's command slot and the log of what crossed
CORE's boundary), each with its log entry. -/

namespace Sys2Proof.Machine

/-- `ST`, the fourteen values of the sequencer state register (R14, R59). The codes 14 and 15 cannot be written down
(R60(d)). -/
inductive SeqState where
  | rstCmd
  | rstWait
  | statCmd
  | statRd
  | idle
  | measCmd
  | measWait
  | frameRd
  | chkT
  | chkH
  | conv
  | resp
  | esc
  | fault
deriving DecidableEq, Repr

/-- `REQ_Q`, the kind of the request being served (R18): 0 is RDT, 1 is RDH. -/
inductive ReqOp where
  | rdt
  | rdh
deriving DecidableEq, Repr

/-- `FAULT_CODE` (R23, R57). The code 3 is never produced and cannot be written down (R60(e)). -/
inductive FaultCode where
  | noFault
  | tempCrcFail
  | humCrcFail
deriving DecidableEq, Repr

/-- `FRAME[0..5]` (R17), by the names of 20_memory.md rule R39, in index order. -/
structure Frame where
  tempMsb : Byte
  tempLsb : Byte
  tempCrc : Byte
  humMsb : Byte
  humLsb : Byte
  humCrc : Byte
deriving DecidableEq, Repr

/-- A bus command: the closed set of R50, eleven and no other (R60(a)). -/
inductive Command where
  | softReset
  | readStatus
  | measHighPoll
  | clearStatus
  | measHighStretch
  | measMedPoll
  | measMedStretch
  | measLowPoll
  | measLowStretch
  | heaterEnable
  | heaterDisable
deriving DecidableEq, Repr

/-- One sample of the input ports, all that a step reads from outside (R9, R58). -/
structure Inputs where
  rst : Bool
  reqValid : Bool
  reqOp : BitVec 1
  cmdDone : Bool
  rxValid : Bool
  rxData : Byte
deriving DecidableEq, Repr

/-- What crosses CORE's boundary, in the order it happens (R43, R95, R124). A bus transaction is one event, recorded in the
step in which CORE sees it end (log entry 6). -/
inductive Event where
  /-- `BusWrite(addr, [b0, b1])` has ended (R34). -/
  | busWrite (addr : BitVec 7) (b0 b1 : Byte)
  /-- `BusRead(addr, n)` has delivered its n bytes (R35). -/
  | busRead (addr : BitVec 7) (bytes : List Byte)
  /-- A host request has been accepted (R117). -/
  | accepted (op : ReqOp)
  /-- A response has been given (R120). -/
  | responded (op : ReqOp) (data : Word)
  /-- The fault has been raised (R129). -/
  | faulted (code : FaultCode)
deriving DecidableEq, Repr

/-- The machine's state. -/
structure State where
  /-- `ST` (R14). -/
  st : SeqState
  /-- `DLY`, unsigned, `DLY_W` bits: below `2^Config.dlyW` by an invariant (R15, log entry 7). -/
  dly : Nat
  /-- `RXI` (R16). -/
  rxi : BitVec 3
  /-- `FRAME[0..5]` (R17). -/
  frame : Frame
  /-- `REQ_Q` (R18). -/
  reqQ : ReqOp
  /-- `STATUS` (R19). -/
  status : Half
  /-- `TEMP_OUT`, two's complement (R20). -/
  tempOut : Word
  /-- `HUM_OUT`, unsigned (R21). -/
  humOut : Word
  /-- `FAULT` (R22). -/
  fault : Bool
  /-- `FAULT_CODE` (R23). -/
  faultCode : FaultCode
  /-- The model's own: the samples placed for the coming steps, the next one first (log entry 1). -/
  inputs : List Inputs
  /-- The model's own: how many steps have been taken, the argument of the free values (log entry 1). -/
  cycle : Nat
  /-- The model's own: a command that an integrator asks CORE to emit (R68 to R75 "if emitted"; log entry 5). -/
  ext : Option Command
  /-- The model's own: the events since the last reset, oldest first (log entry 6). -/
  log : List Event
deriving DecidableEq, Repr

/-- What stops the machine. The spec gives CORE no such stop; its own fault mechanism (R125) is a next state. -/
inductive Fault where
  /-- Raised by the frame receiver when a byte arrives while `RXI` is 6 or 7: there is no cell `FRAME[6]` (R32). No run from
  reset reaches it (R16). Safe: the model stops where the spec gives no effect. -/
  | frameIndex (rxi : BitVec 3)
deriving DecidableEq, Repr

/-- Where the model gives no meaning. -/
inductive Refusal where
  /-- An instruction without a meaning yet, by its mnemonic; raised by exec's refused arms only, of which there are none.
  Safe. -/
  | notModelled (mnemonic : String)
  /-- Raised by running bytes that are no instruction, such as a value outside the closed set of command codes (R60(a)). No
  step raises it, since what a step fetches is an instruction in every state. Safe. -/
  | notAnInstruction (why : DecodeReject)
deriving DecidableEq, Repr

/-- The outcome of a step or of an instruction. -/
abbrev Result := Host.Outcome State Fault Refusal

/-- The machine after reset (R29, R140, R141). `ST`, `DLY`, `RXI`, `FAULT` and `FAULT_CODE` are the spec's values; `FRAME`,
`REQ_Q`, `STATUS`, `TEMP_OUT` and `HUM_OUT` have none in the spec and are zero here by DESIGN CHOICE (log entry 2). No input is
placed, nothing is in the slot and nothing has happened. -/
def State.reset : State where
  st := .rstCmd
  dly := 0
  rxi := 0
  frame := ⟨0, 0, 0, 0, 0, 0⟩
  reqQ := .rdt
  status := 0
  tempOut := 0
  humOut := 0
  fault := false
  faultCode := .noFault
  inputs := []
  cycle := 0
  ext := none
  log := []

end Sys2Proof.Machine
end

