-- ==== Sys2Proof/Machine/Contract.lean ====
section
/-! DEFINITION. The fixed constants of the wire contract and of the outputs (00_scope.md rules R6, R7). -/

namespace Sys2Proof.Machine

/-- `DEV_ADDR`, the 7-bit device address as CORE's ports carry it (R41). -/
def devAddr : BitVec 7 := 0x44

/-- `CRC_POLY`, the low 8 bits of the checksum polynomial. -/
def crcPoly : Byte := 0x31

/-- `CRC_INIT`, the checksum's initial accumulator. -/
def crcInit : Byte := 0xFF

/-- `FRAME_LEN`, in bytes. -/
def frameLen : BitVec 3 := 6

/-- `STATUS_LEN`, in bytes. -/
def statusLen : BitVec 3 := 2

/-- `T_OFFSET`, in degrees Celsius. -/
def tOffset : Int := -45

/-- `T_SPAN`, in degrees Celsius. -/
def tSpan : Nat := 175

/-- `H_SPAN`, in percent. -/
def hSpan : Nat := 100

/-- `WORD_MAX`, the divisor of both conversions. -/
def wordMax : Nat := 65535

/-- `OUT_SCALE`: the outputs are in thousandths (R109). -/
def outScale : Nat := 1000

/-- The command state `S_RST_CMD` emits (R79). -/
def resetCode : Half := 0x30A2

/-- The command state `S_STAT_CMD` emits (R81). -/
def statusCode : Half := 0xF32D

/-- `MEAS_CODE`, the command state `S_MEAS_CMD` emits (R84). -/
def measCode : Half := 0x2400

end Sys2Proof.Machine
end

