-- ==== Sys2Proof/Machine/Converter.lean ====
section
/-! DEFINITION. The linear converter (43_converter.md rules R107 to R116), on unbounded integers, narrowed at the end. -/

namespace Sys2Proof.Machine

/-- A raw word scaled by `span * OUT_SCALE / WORD_MAX`, rounded to the nearest integer (R109): add half the odd divisor
less one half, then divide, flooring. There is no tie. -/
def scaleRound (span : Nat) (w : Half) : Nat :=
  (w.toNat * (span * outScale) + (wordMax - 1) / 2) / wordMax

/-- `conv_t(w)` (R110), in thousandths of a degree Celsius, two's complement. -/
def convT (w : Half) : Word := BitVec.ofInt 32 ((scaleRound tSpan w : Int) + tOffset * outScale)

/-- `conv_h(w)` (R111), in thousandths of a percent, unsigned. -/
def convH (w : Half) : Word := BitVec.ofNat 32 (scaleRound hSpan w)

end Sys2Proof.Machine
end

