-- ==== Sys2Proof/Machine/Crc8.lean ====
section
/-! DEFINITION. The checksum function (42_crc8.md rules R97 to R99), a combinational function of its bytes (R106). -/

namespace Sys2Proof.Machine

/-- One round (R98): shift left one bit, dropping bit 7, and exclusive-or with the polynomial if bit 7 was set before the
shift. -/
def crcRound (acc : Byte) : Byte := if acc.msb then (acc <<< 1) ^^^ crcPoly else acc <<< 1

/-- n rounds. -/
def crcRounds : Nat → Byte → Byte
  | 0, acc => acc
  | n + 1, acc => crcRounds n (crcRound acc)

/-- The byte table T of R99, as eight rounds. -/
def crcT (x : Byte) : Byte := crcRounds 8 x

/-- The accumulator after one more byte (R97): exclusive-or the byte in, then eight rounds. -/
def crcStep (acc byte : Byte) : Byte := crcT (acc ^^^ byte)

/-- `crc8(data)` (R97), for any length. -/
def crc8 (data : List Byte) : Byte := data.foldl crcStep crcInit

/-- The printed table of R99, one row of sixteen bytes as one number, column 0 the most significant byte. -/
def crcTableRow (r : Nat) : BitVec 128 :=
  match r with
  | 0 => 0x00316253C4F5A697B988DBEA7D4C1F2E
  | 1 => 0x4372211087B6E5D4FACB98A93E0F5C6D
  | 2 => 0x86B7E4D5427320113F0E5D6CFBCA99A8
  | 3 => 0xC5F4A796013063527C4D1E2FB889DAEB
  | 4 => 0x3D0C5F6EF9C89BAA84B5E6D740712213
  | 5 => 0x7E4F1C2DBA8BD8E9C7F6A59403326150
  | 6 => 0xBB8AD9E87F4E1D2C02336051C6F7A495
  | 7 => 0xF8C99AAB3C0D5E6F4170231285B4E7D6
  | 8 => 0x7A4B1829BE8FDCEDC3F2A19007366554
  | 9 => 0x39085B6AFDCC9FAE80B1E2D344752617
  | 10 => 0xFCCD9EAF38095A6B4574271681B0E3D2
  | 11 => 0xBF8EDDEC7B4A192806376455C2F3A091
  | 12 => 0x4776251483B2E1D0FECF9CAD3A0B5869
  | 13 => 0x04356657C0F1A293BD8CDFEE79481B2A
  | 14 => 0xC1F0A3920534675678491A2BBC8DDEEF
  | 15 => 0x82B3E0D1467724153B0A5968FFCE9DAC
  | _ => 0

/-- The entry of the printed table for x: row `x / 16`, column `x mod 16` (R99). -/
def crcTable (x : Byte) : Byte := (crcTableRow (x.toNat / 16)).extractLsb' (8 * (15 - x.toNat % 16)) 8

end Sys2Proof.Machine
end

