-- ==== Sys2Proof/Machine/Operands.lean ====
section
/-! DEFINITION. Operand assembly and the encodings of register values (30_encoding.md rules R52, R53, R55, R57, R59): most
significant byte first everywhere (20_memory.md rule R38). -/

namespace Sys2Proof.Machine

/-- `hi ∥ lo` (R8, R52). -/
def joinBytes (hi lo : Byte) : Half := hi ++ lo

/-- `v[15:8]`. -/
def highByte (v : Half) : Byte := v.extractLsb' 8 8

/-- `v[7:0]`. -/
def lowByte (v : Half) : Byte := v.extractLsb' 0 8

/-- The wire `TWORD = FRAME[0] ∥ FRAME[1]` (R24). -/
def Frame.tword (f : Frame) : Half := joinBytes f.tempMsb f.tempLsb

/-- The wire `HWORD = FRAME[3] ∥ FRAME[4]` (R24). -/
def Frame.hword (f : Frame) : Half := joinBytes f.humMsb f.humLsb

/-- The six bytes in arrival order (R17, R51). -/
def Frame.bytes (f : Frame) : List Byte := [f.tempMsb, f.tempLsb, f.tempCrc, f.humMsb, f.humLsb, f.humCrc]

/-- Reading the cell `FRAME[i]`; there are the cells 0 to 5 and no others (R32). -/
def Frame.read (f : Frame) (i : Nat) : Option Byte :=
  match i with
  | 0 => some f.tempMsb
  | 1 => some f.tempLsb
  | 2 => some f.tempCrc
  | 3 => some f.humMsb
  | 4 => some f.humLsb
  | 5 => some f.humCrc
  | _ => none

/-- Writing the cell `FRAME[i]`; none where there is no such cell (R32). -/
def Frame.write (f : Frame) (i : Nat) (b : Byte) : Option Frame :=
  match i with
  | 0 => some { f with tempMsb := b }
  | 1 => some { f with tempLsb := b }
  | 2 => some { f with tempCrc := b }
  | 3 => some { f with humMsb := b }
  | 4 => some { f with humLsb := b }
  | 5 => some { f with humCrc := b }
  | _ => none

/-- `STATUS[15:8] <- b`, the other half kept (R82). -/
def withHighByte (v : Half) (b : Byte) : Half := joinBytes b (lowByte v)

/-- `STATUS[7:0] <- b`, the other half kept (R82). -/
def withLowByte (v : Half) (b : Byte) : Half := joinBytes (highByte v) b

/-- The 16-bit code of a command (R50). -/
def Command.code : Command → Half
  | .softReset => resetCode
  | .readStatus => statusCode
  | .measHighPoll => measCode
  | .clearStatus => 0x3041
  | .measHighStretch => 0x2C06
  | .measMedPoll => 0x240B
  | .measMedStretch => 0x2C0D
  | .measLowPoll => 0x2416
  | .measLowStretch => 0x2C10
  | .heaterEnable => 0x306D
  | .heaterDisable => 0x3066

/-- The instruction that a command is (R50). -/
def Command.instr : Command → Instr
  | .softReset => .softReset
  | .readStatus => .readStatus
  | .measHighPoll => .measHighPoll
  | .clearStatus => .clearStatus
  | .measHighStretch => .measHighStretch
  | .measMedPoll => .measMedPoll
  | .measMedStretch => .measMedStretch
  | .measLowPoll => .measLowPoll
  | .measLowStretch => .measLowStretch
  | .heaterEnable => .heaterEnable
  | .heaterDisable => .heaterDisable

/-- The eleven commands (R50). -/
def commands : List Command :=
  [.softReset, .readStatus, .measHighPoll, .clearStatus, .measHighStretch, .measMedPoll, .measMedStretch, .measLowPoll,
    .measLowStretch, .heaterEnable, .heaterDisable]

/-- The command with a given code, if the code is of the closed set (R60(a)). -/
def Command.ofCode (code : Half) : Option Command := commands.find? fun c => c.code == code

/-- The 1-bit code of a request kind (R55). -/
def ReqOp.code : ReqOp → BitVec 1
  | .rdt => 0
  | .rdh => 1

/-- The request kind of a 1-bit code (R55). -/
def ReqOp.ofCode (c : BitVec 1) : ReqOp := if c = 0 then .rdt else .rdh

/-- The 2-bit code on the fault port (R57). -/
def FaultCode.code : FaultCode → BitVec 2
  | .noFault => 0
  | .tempCrcFail => 1
  | .humCrcFail => 2

/-- The 4-bit code of a sequencer state (R59). -/
def SeqState.code : SeqState → BitVec 4
  | .rstCmd => 0
  | .rstWait => 1
  | .statCmd => 2
  | .statRd => 3
  | .idle => 4
  | .measCmd => 5
  | .measWait => 6
  | .frameRd => 7
  | .chkT => 8
  | .chkH => 9
  | .conv => 10
  | .resp => 11
  | .esc => 12
  | .fault => 13

end Sys2Proof.Machine
end

