-- ==== Sys2Proof/Machine/Flags.lean ====
section
/-! DEFINITION. CORE has no flags beyond `FAULT` (10_state.md rule R25); what stands in their place are the two checksum
comparisons, used in the step that computes them and stored nowhere, and the code that a failure carries. -/

namespace Sys2Proof.Machine

/-- A field is valid iff the checksum of its two data bytes is its third byte, on all 8 bits (R100). -/
def fieldValid (d0 d1 c : Byte) : Bool := crc8 [d0, d1] == c

/-- The temperature field (R100). -/
def Frame.tempFieldValid (f : Frame) : Bool := fieldValid f.tempMsb f.tempLsb f.tempCrc

/-- The humidity field (R100). -/
def Frame.humFieldValid (f : Frame) : Bool := fieldValid f.humMsb f.humLsb f.humCrc

/-- `frame_valid` (R101), which is `cycle_ok` of R92. -/
def Frame.valid (f : Frame) : Bool := f.tempFieldValid && f.humFieldValid

/-- The code a failed request carries: the accessor's, whichever field failed (R121, R126, R127; 90_conflicts.md C4). -/
def faultCodeOf : ReqOp → FaultCode
  | .rdt => .tempCrcFail
  | .rdh => .humCrcFail

end Sys2Proof.Machine
end

