-- ==== Sys2Proof/Machine/Ops.lean ====
section
/-! DEFINITION. The named operations over the state that every rule is written with: sampling the inputs, the register
writes, the bus write primitive, acceptance of a request, raising a fault and reset. -/

namespace Sys2Proof.Machine

/-! ## The input ports -/

/-- The input pins in step number n when nothing has been placed for it: free values (log entry 1). -/
def freeSample (n : Nat) : Inputs where
  rst := Config.freeRst n
  reqValid := Config.freeReqValid n
  reqOp := Config.freeReqOp n
  cmdDone := Config.freeCmdDone n
  rxValid := Config.freeRxValid n
  rxData := Config.freeRxData n

/-- The inputs sampled in the coming step (R9, R77): the next placed sample, else free values. -/
def State.sample (s : State) : Inputs :=
  match s.inputs with
  | i :: _ => i
  | [] => freeSample s.cycle

/-- The end of a clock cycle: the sample has been used. Every step but a stop ends with it, exactly once. -/
def State.tick (s : State) : State := { s with inputs := s.inputs.tail, cycle := s.cycle + 1 }

/-! ## Register writes (R9: all writes of a step take effect at its end) -/

/-- `ST <- t`. -/
def State.goto (s : State) (t : SeqState) : State := { s with st := t }

/-- `DLY <- n`. -/
def State.setDly (s : State) (n : Nat) : State := { s with dly := n }

/-- `RXI <- i`. -/
def State.setRxi (s : State) (i : BitVec 3) : State := { s with rxi := i }

/-- `FRAME[0..5] <- f`. -/
def State.setFrame (s : State) (f : Frame) : State := { s with frame := f }

/-- `REQ_Q <- op`. -/
def State.setReqQ (s : State) (op : ReqOp) : State := { s with reqQ := op }

/-- `STATUS <- v`. -/
def State.setStatus (s : State) (v : Half) : State := { s with status := v }

/-- `TEMP_OUT <- t; HUM_OUT <- h`, always both (R30(b)). -/
def State.setReading (s : State) (t h : Word) : State := { s with tempOut := t, humOut := h }

/-- `FAULT <- 1; FAULT_CODE <- code`. -/
def State.setFault (s : State) (code : FaultCode) : State := { s with fault := true, faultCode := code }

/-- The integrator's command has been emitted: the slot is free again (log entry 5). -/
def State.retireExt (s : State) : State := { s with ext := none }

/-- An event at CORE's boundary (log entry 6). -/
def State.record (s : State) (e : Event) : State := { s with log := s.log ++ [e] }

/-! ## The bus write primitive -/

/-- `BusWrite(DEV_ADDR, [code[15:8], code[7:0]])` has ended (R34, R63). Nothing tells whether it succeeded (R64). -/
def State.busWrite (s : State) (code : Half) : State :=
  s.record (.busWrite devAddr (highByte code) (lowByte code))

/-- `write_command(code)` in one step (R63, R36): while the transport has not ended the write, no register changes; in the
step in which it has, the state that follows is entered. -/
def writeCommand (code : Half) (follow : State → State) (s : State) : Result :=
  .next (if s.sample.cmdDone then follow (s.busWrite code) else s)

/-- What follows a command: `enter` where it was emitted by its own state `here`; elsewhere it came from the integrator's
slot, which it frees, and no state follows (R63, R68; log entries 5 and 9). -/
def followFrom (here : SeqState) (enter : State → State) (s : State) : State :=
  if s.st = here then enter s else s.retireExt

/-! ## The host request -/

/-- Acceptance of a request (R117). Outside `S_IDLE` a request is neither served nor remembered (R123). -/
def acceptRequest (op : ReqOp) (s : State) : State :=
  if s.st = .idle then ((s.setReqQ op).goto .measCmd).record (.accepted op) else s

/-- The cached value a response carries (R56). -/
def State.cachedValue (s : State) : Word :=
  match s.reqQ with
  | .rdt => s.tempOut
  | .rdh => s.humOut

/-! ## Taking an exception, and the only way out of it -/

/-- `raise Fault(code)` (R129): nothing is saved, nothing else changes, and control goes to the terminal state. -/
def raiseFault (code : FaultCode) (s : State) : State :=
  ((s.setFault code).goto .fault).record (.faulted code)

/-- The frame buffer after the reset step number n: free values (log entry 3). -/
def unspecFrame (n : Nat) : Frame :=
  ⟨Config.unspecFrame n 0, Config.unspecFrame n 1, Config.unspecFrame n 2, Config.unspecFrame n 3,
    Config.unspecFrame n 4, Config.unspecFrame n 5⟩

/-- A step in which `rst = 1` is sampled (R140). There is no return from a fault (R130); reset starts a new run. The
registers R29 leaves unspecified take free values (log entry 3); a new run has no history and an empty slot. -/
def resetStep (s : State) : State where
  st := .rstCmd
  dly := 0
  rxi := 0
  frame := unspecFrame s.cycle
  reqQ := .ofCode (Config.unspecReqQ s.cycle)
  status := Config.unspecStatus s.cycle
  tempOut := Config.unspecTempOut s.cycle
  humOut := Config.unspecHumOut s.cycle
  fault := false
  faultCode := .noFault
  inputs := s.inputs.tail
  cycle := s.cycle + 1
  ext := none
  log := []

/-! ## Outcomes -/

/-- What a step does after an instruction or a rule has answered a next state. -/
def andThen (r : Result) (f : State → State) : Result :=
  match r with
  | .next s => .next (f s)
  | .fault e => .fault e
  | .refused e => .refused e

/-- The next state of an outcome, if it has one. -/
def nextOf (r : Result) : Option State :=
  match r with
  | .next s => some s
  | .fault _ => none
  | .refused _ => none

end Sys2Proof.Machine
end

