-- ==== Sys2Proof/Machine/Commands.lean ====
section
/-! DEFINITION. The eleven bus commands (40_commands.md rules R63 to R75). The three that CORE emits hand over to the state
that follows them in the sequence (R79, R81, R84); the eight constants are a bus write and nothing else (R68 to R75, "if
emitted"). -/

namespace Sys2Proof.Machine

/-- `SOFT_RESET` (R65); in `S_RST_CMD` it loads the delay counter and starts the reset settle wait (R79). -/
def execSoftReset (s : State) : Result :=
  writeCommand 0x30A2 (followFrom .rstCmd fun s => (s.setDly Config.resetSettleTicks).goto .rstWait) s

/-- `READ_STATUS` (R66); in `S_STAT_CMD` it clears the receive index and starts the 2-byte read at once (R81). -/
def execReadStatus (s : State) : Result :=
  writeCommand 0xF32D (followFrom .statCmd fun s => (s.setRxi 0).goto .statRd) s

/-- `MEAS_HIGH_POLL` (R67); in `S_MEAS_CMD` it loads the delay counter and starts the measurement settle wait (R84). -/
def execMeasHighPoll (s : State) : Result :=
  writeCommand 0x2400 (followFrom .measCmd fun s => (s.setDly Config.measSettleTicks).goto .measWait) s

/-- `CLEAR_STATUS` (R68). -/
def execClearStatus (s : State) : Result := writeCommand 0x3041 State.retireExt s

/-- `MEAS_HIGH_STRETCH` (R69). -/
def execMeasHighStretch (s : State) : Result := writeCommand 0x2C06 State.retireExt s

/-- `MEAS_MED_POLL` (R70). -/
def execMeasMedPoll (s : State) : Result := writeCommand 0x240B State.retireExt s

/-- `MEAS_MED_STRETCH` (R71). -/
def execMeasMedStretch (s : State) : Result := writeCommand 0x2C0D State.retireExt s

/-- `MEAS_LOW_POLL` (R72). -/
def execMeasLowPoll (s : State) : Result := writeCommand 0x2416 State.retireExt s

/-- `MEAS_LOW_STRETCH` (R73). -/
def execMeasLowStretch (s : State) : Result := writeCommand 0x2C10 State.retireExt s

/-- `HEATER_ENABLE` (R74). -/
def execHeaterEnable (s : State) : Result := writeCommand 0x306D State.retireExt s

/-- `HEATER_DISABLE` (R75). -/
def execHeaterDisable (s : State) : Result := writeCommand 0x3066 State.retireExt s

end Sys2Proof.Machine
end

