-- ==== Sys2Proof/Machine/HostRequests.lean ====
section
/-! DEFINITION. The two host requests (44_host_operations.md rules R117 to R124). Executing one is its acceptance, the one step
R117 gives it; the measurement cycle it starts and the response or the fault it ends in are the sequencer's steps
(Machine/Sequencer.lean), as R77 has it, one per clock (log entry 11). -/

namespace Sys2Proof.Machine

/-- `RDT` (R118), `req_op = 0`. -/
def execRdt (s : State) : Result := .next (acceptRequest .rdt s)

/-- `RDH` (R119), `req_op = 1`. -/
def execRdh (s : State) : Result := .next (acceptRequest .rdh s)

end Sys2Proof.Machine
end

