-- ==== Sys2Proof/Machine/Dispatch.lean ====
section
/-! DEFINITION. The meaning of each instruction, one arm per constructor. -/

namespace Sys2Proof.Machine

/-- One instruction in one step, before the clock's tick. -/
def exec (i : Instr) (s : State) : Host.Outcome State Fault Refusal :=
  match i with
  | .softReset => Sys2Proof.Machine.execSoftReset s
  | .readStatus => Sys2Proof.Machine.execReadStatus s
  | .measHighPoll => Sys2Proof.Machine.execMeasHighPoll s
  | .clearStatus => Sys2Proof.Machine.execClearStatus s
  | .measHighStretch => Sys2Proof.Machine.execMeasHighStretch s
  | .measMedPoll => Sys2Proof.Machine.execMeasMedPoll s
  | .measMedStretch => Sys2Proof.Machine.execMeasMedStretch s
  | .measLowPoll => Sys2Proof.Machine.execMeasLowPoll s
  | .measLowStretch => Sys2Proof.Machine.execMeasLowStretch s
  | .heaterEnable => Sys2Proof.Machine.execHeaterEnable s
  | .heaterDisable => Sys2Proof.Machine.execHeaterDisable s
  | .rdt => Sys2Proof.Machine.execRdt s
  | .rdh => Sys2Proof.Machine.execRdh s

end Sys2Proof.Machine
end

