-- ==== Sys2Proof/Machine/Outputs.lean ====
section
/-! DEFINITION. The output ports as functions of the registers (30_encoding.md rule R58): Moore outputs, never of the inputs of
the same step. An output that carries no meaning in a step has no value there (93_implementation_defined.md V1, V3; log
entry 13). -/

namespace Sys2Proof.Machine

/-- The command on the write port: that of the command state, or in `S_IDLE` the integrator's (R58; log entry 5). DESIGN
CHOICE: R144 has `cmd_valid` drop in the step after `rst`, but R140 makes that step's state `S_RST_CMD`, where R58 has
`cmd_valid = 1`; the model follows R140 and R58, so after `rst` in a command state `cmd_valid` stays 1 without a gap, with
`SOFT_RESET` on the port (log entry 18). -/
def State.commandOut (s : State) : Option Command :=
  match s.st with
  | .rstCmd => some .softReset
  | .statCmd => some .readStatus
  | .measCmd => some .measHighPoll
  | .idle => s.ext
  | .rstWait => none
  | .statRd => none
  | .measWait => none
  | .frameRd => none
  | .chkT => none
  | .chkH => none
  | .conv => none
  | .resp => none
  | .esc => none
  | .fault => none

/-- The length of the read on the read port (R58). -/
def State.readOut (s : State) : Option (BitVec 3) :=
  match s.st with
  | .statRd => some statusLen
  | .frameRd => some frameLen
  | .rstCmd => none
  | .rstWait => none
  | .statCmd => none
  | .idle => none
  | .measCmd => none
  | .measWait => none
  | .chkT => none
  | .chkH => none
  | .conv => none
  | .resp => none
  | .esc => none
  | .fault => none

/-- Whether INIT has stored both status bytes (R58, row `status_word`). -/
def SeqState.initDone : SeqState → Bool
  | .rstCmd => false
  | .rstWait => false
  | .statCmd => false
  | .statRd => false
  | .idle => true
  | .measCmd => true
  | .measWait => true
  | .frameRd => true
  | .chkT => true
  | .chkH => true
  | .conv => true
  | .resp => true
  | .esc => true
  | .fault => true

/-- The output ports of one step (R58). -/
structure Outputs where
  reqReady : Bool
  rspValid : Bool
  rspOp : Option (BitVec 1)
  rspData : Option Word
  cmdValid : Bool
  cmdAddr : BitVec 7
  cmdData : Option Half
  rdValid : Bool
  rdAddr : BitVec 7
  rdLen : Option (BitVec 3)
  fault : Bool
  faultCode : BitVec 2
  statusWord : Option Half
deriving DecidableEq, Repr

/-- The outputs during the step that starts in s (R58). A request waits while the integrator's command is out (log
entry 5). -/
def outputs (s : State) : Outputs where
  reqReady := s.st == .idle && s.ext.isNone
  rspValid := s.st == .resp
  rspOp := if s.st = .resp then some s.reqQ.code else none
  rspData := if s.st = .resp then some s.cachedValue else none
  cmdValid := s.commandOut.isSome
  cmdAddr := devAddr
  cmdData := s.commandOut.map Command.code
  rdValid := s.readOut.isSome
  rdAddr := devAddr
  rdLen := s.readOut
  fault := s.fault
  faultCode := s.faultCode.code
  statusWord := if s.st.initDone then some s.status else none

end Sys2Proof.Machine
end

