-- ==== Sys2Proof/Machine/Sequencer.lean ====
section
/-! DEFINITION. The rules of the states in which no instruction is run: the waits, the receiver, the checks, the conversion and
the three ends of a request (41_sequencer.md, 44_host_operations.md, 60_exceptions.md). Each is the rule's pseudocode, before
the clock's tick. -/

namespace Sys2Proof.Machine

/-- `S_RST_WAIT` (R80). -/
def ruleRstWait (s : State) : Result :=
  .next (if s.dly = 0 then s.goto .statCmd else s.setDly (s.dly - 1))

/-- `S_STAT_RD` (R82): the frame receiver (R91) with `STATUS` as its destination. -/
def ruleStatRd (s : State) : Result :=
  let b := s.sample.rxData
  .next
    (if s.sample.rxValid then
      (if s.rxi = 0 then (s.setStatus (withHighByte s.status b)).setRxi 1
       else ((s.setStatus (withLowByte s.status b)).goto .idle).record (.busRead devAddr [highByte s.status, b]))
     else s)

/-- `S_MEAS_WAIT` (R85). -/
def ruleMeasWait (s : State) : Result :=
  .next (if s.dly = 0 then (s.setRxi 0).goto .frameRd else s.setDly (s.dly - 1))

/-- `S_FRAME_RD` (R86): the frame receiver (R91) with `FRAME` as its destination. With `RXI` 6 or 7, which no run reaches
(R16), there is no cell to write and the model stops (log entry 8). -/
def ruleFrameRd (s : State) : Result :=
  if s.sample.rxValid then
    match s.frame.write s.rxi.toNat s.sample.rxData with
    | none => .fault (.frameIndex s.rxi)
    | some f =>
      .next
        (if s.rxi = 5 then ((s.setFrame f).goto .chkT).record (.busRead devAddr f.bytes)
         else (s.setFrame f).setRxi (s.rxi + 1))
  else .next s

/-- `S_CHK_T` (R87). -/
def ruleChkT (s : State) : Result :=
  .next (s.goto (if s.frame.tempFieldValid then .chkH else .esc))

/-- `S_CHK_H` (R88). -/
def ruleChkH (s : State) : Result :=
  .next (s.goto (if s.frame.humFieldValid then .conv else .esc))

/-- `S_CONV` (R89). -/
def ruleConv (s : State) : Result :=
  .next ((s.setReading (convT s.frame.tword) (convH s.frame.hword)).goto .resp)

/-- `S_RESP` (R120): the response pulse is the step's output, and the accessor returns. -/
def ruleResp (s : State) : Result :=
  .next ((s.goto .idle).record (.responded s.reqQ s.cachedValue))

/-- `S_ESC` (R121). -/
def ruleEsc (s : State) : Result := .next (raiseFault (faultCodeOf s.reqQ) s)

/-- The rule of the state `ST` holds, in a step in which no instruction is run. The command states always run one, `S_IDLE`
without a request keeps its registers (R117), and so does `S_FAULT` (R130). -/
def sequencerRule (s : State) : Result :=
  match s.st with
  | .rstCmd => .next s
  | .rstWait => ruleRstWait s
  | .statCmd => .next s
  | .statRd => ruleStatRd s
  | .idle => .next s
  | .measCmd => .next s
  | .measWait => ruleMeasWait s
  | .frameRd => ruleFrameRd s
  | .chkT => ruleChkT s
  | .chkH => ruleChkH s
  | .conv => ruleConv s
  | .resp => ruleResp s
  | .esc => ruleEsc s
  | .fault => .next s

end Sys2Proof.Machine
end

