-- ==== Sys2Proof/Machine/Clock.lean ====
section
/-! DEFINITION. One clock cycle (41_sequencer.md rule R77), and where the instruction it runs comes from: the hard-wired
command of a command state (R46: nothing is fetched from a memory), the integrator's slot, or the host's request port. -/

namespace Sys2Proof.Machine

/-- The bytes of the instruction a step runs: the command on the write port as it goes over the bus (R36), or, in `S_IDLE`
with nothing to emit, the request on the host port (R54). None in every other step. -/
def State.fetch (s : State) : Option (List Byte) :=
  match s.commandOut with
  | some c => some (commandBytes c.code)
  | none => if s.st = .idle ∧ s.sample.reqValid then some [requestByte s.sample.reqOp] else none

/-- Running the fetched bytes: the decoded instruction, or a refusal where they are none. -/
def runBytes (bytes : List Byte) (s : State) : Result :=
  match decode bytes with
  | .ok i => exec i s
  | .error why => .refused (.notAnInstruction why)

/-- What a step without reset does, before the clock's tick. -/
def State.act (s : State) : Result :=
  match s.fetch with
  | some bytes => runBytes bytes s
  | none => sequencerRule s

/-- One clock cycle: reset goes first (R77, R131), else the one rule that applies. -/
def clockCycle (s : State) : Result :=
  if s.sample.rst then .next (resetStep s) else andThen s.act State.tick

/-- An input sample in which nothing is asserted. -/
def quietSample : Inputs := ⟨false, false, 0, false, false, 0⟩

/-- Placing a command so that the next step runs it with the transport's answer at hand: for a command CORE emits, the
sequencer in its command state; for the eight others, `S_IDLE` with the command in the integrator's slot. -/
def placeCommand (s : State) (c : Command) : State :=
  let t := { s with inputs := { quietSample with cmdDone := true } :: s.inputs }
  if c = .softReset then { t with st := .rstCmd }
  else if c = .readStatus then { t with st := .statCmd }
  else if c = .measHighPoll then { t with st := .measCmd }
  else { t with st := .idle, ext := some c }

/-- Placing a request: `S_IDLE` with an empty slot, and `req_valid = 1` with the operation on the port. -/
def placeRequest (s : State) (op : BitVec 1) : State :=
  { s with st := .idle, ext := none, inputs := { quietSample with reqValid := true, reqOp := op } :: s.inputs }

/-- Placing a word of the opcode table (log entry 10). A word that no port can carry leaves the state as it is: the request
port has one bit, and the command port carries the eleven codes of R50 only. -/
def placeWord (s : State) (nbits w : Nat) : State :=
  match tableBytes nbits w with
  | some [b] => if b.toNat < 2 then placeRequest s (b.setWidth 1) else s
  | some [b0, b1] =>
    match Command.ofCode (joinBytes b0 b1) with
    | some c => placeCommand s c
    | none => s
  | some _ => s
  | none => s

end Sys2Proof.Machine
end

