-- ==== Sys2Proof/Machine/Step.lean ====
section
/-! DEFINITION. The step function (41_sequencer.md rule R77), and placing an instruction for the next step. -/

namespace Sys2Proof.Machine

/-- One step of CORE, one clock cycle (R77). -/
def step (s : State) : Host.Outcome State Fault Refusal := clockCycle s

/-- s with a word of the opcode table placed so that the next step runs it (log entry 10). -/
def State.withFetchWord (s : State) (nbits w : Nat) : State := placeWord s nbits w

end Sys2Proof.Machine
end

