-- ==== Sys2Proof/Safety.lean ====
section
/-! DEFINITION. The terms claims are made in: runs of many steps, what the outside world supplies during them, the invariants,
the history of a run, and which registers a run can depend on. -/

namespace Sys2Proof.Machine

/-! ## Runs -/

/-- k steps; a run stops at the first fault or refusal. -/
def run : Nat → State → Result
  | 0, s => .next s
  | k + 1, s =>
    match step s with
    | .next t => run k t
    | .fault e => .fault e
    | .refused e => .refused e

/-- The inputs sampled in step j of a run from s, counted from 0 (every step that goes on uses one sample). -/
def State.sampleAt (s : State) (j : Nat) : Inputs := (s.inputs[j]?).getD (freeSample (s.cycle + j))

/-- `rst = 0` in the first k steps. -/
def NoReset (s : State) (k : Nat) : Prop := ∀ j, j < k → (s.sampleAt j).rst = false

/-- The transport lets a command state that is entered at step `start` last a steps (R36): `cmd_done = 1` in the last of
them and in none before. -/
def CommandTakes (s : State) (start a : Nat) : Prop :=
  1 ≤ a ∧ (∀ j, j + 1 < a → (s.sampleAt (start + j)).cmdDone = false) ∧
    (s.sampleAt (start + a - 1)).cmdDone = true

/-- The bytes the transport delivers in the b steps from `start` on, in order (R37). -/
def bytesDelivered (s : State) (start b : Nat) : List Byte :=
  (List.range b).filterMap fun j =>
    if (s.sampleAt (start + j)).rxValid then some (s.sampleAt (start + j)).rxData else none

/-- The transport lets a read state that is entered at step `start` last b steps, and delivers these bytes, with any gaps,
the last one in the last step (R37). -/
def ReadTakes (s : State) (start b : Nat) (bytes : List Byte) : Prop :=
  1 ≤ b ∧ bytesDelivered s start b = bytes ∧ (s.sampleAt (start + b - 1)).rxValid = true

/-- All four valid outputs are 0. -/
def ValidOutputsLow (o : Outputs) : Prop :=
  o.reqReady = false ∧ o.rspValid = false ∧ o.cmdValid = false ∧ o.rdValid = false

/-! ## The control invariant -/

/-- The states in which a request is being served, from its acceptance to its response or fault (R124). -/
def SeqState.serving : SeqState → Bool
  | .rstCmd => false
  | .rstWait => false
  | .statCmd => false
  | .statRd => false
  | .idle => false
  | .measCmd => true
  | .measWait => true
  | .frameRd => true
  | .chkT => true
  | .chkH => true
  | .conv => true
  | .resp => true
  | .esc => true
  | .fault => false

/-- What holds of the control registers in every run. -/
structure ControlInv (s : State) : Prop where
  /-- `RXI` ranges over 0 to 5 (R16). -/
  rxi_in_range : s.rxi.toNat ≤ 5
  /-- `RXI` is 0 or 1 in `S_STAT_RD` (R91). -/
  rxi_in_status_read : s.st = .statRd → s.rxi.toNat ≤ 1
  /-- The last byte leaves `RXI` at 5 (R91), where it stays until the next read (R132). -/
  rxi_after_frame : s.st ∈ [SeqState.chkT, .chkH, .conv, .resp, .esc, .fault] → s.rxi = 5
  /-- `DLY` fits its width (R15). -/
  dly_fits : s.dly < 2 ^ Config.dlyW
  /-- `DLY` counts nowhere but in the two wait states (R90, R137). -/
  dly_at_rest : s.st ≠ .rstWait → s.st ≠ .measWait → s.dly = 0
  /-- `FAULT` is 1 exactly in `S_FAULT` (R22). -/
  fault_iff : s.fault = true ↔ s.st = .fault
  /-- `FAULT_CODE` is the accessor's tag in `S_FAULT` and 0 elsewhere (R23, R139). -/
  fault_code : s.faultCode = if s.st = .fault then faultCodeOf s.reqQ else .noFault
  /-- Nothing puts a command into the integrator's slot (R76, D19; log entry 5). -/
  slot_empty : s.ext = none

/-! ## The history of a run -/

/-- The value a request of a kind returns for a frame (R118, R119). -/
def reading (op : ReqOp) (f : Frame) : Word :=
  match op with
  | .rdt => convT f.tword
  | .rdh => convH f.hword

/-- How far a run has come, as far as CORE's boundary shows it. -/
inductive Phase where
  | start
  | resetSent
  | statusSent
  | ready
  | pending (op : ReqOp)
  | measuring (op : ReqOp)
  | framed (op : ReqOp) (f : Frame)
  | down
deriving DecidableEq, Repr

/-- Whether an event is the write of a command to the device (R34, R41). -/
def isWriteOf (code : Half) (e : Event) : Bool := e == .busWrite 0x44 (code.extractLsb' 8 8) (code.extractLsb' 0 8)

/-- The one thing that may cross the boundary next (R43, R95, R118, R119, R124): the three transactions of INIT; then for each
request its acceptance, its own command, its own frame, and then either the response with the value of that frame, which
is valid, or the fault with the accessor's code, the frame being invalid; and after a fault nothing. -/
def advance (p : Phase) (e : Event) : Option Phase :=
  match p with
  | .start => if isWriteOf 0x30A2 e then some .resetSent else none
  | .resetSent => if isWriteOf 0xF32D e then some .statusSent else none
  | .statusSent =>
    match e with
    | .busRead a [_, _] => if a = 0x44 then some .ready else none
    | _ => none
  | .ready =>
    match e with
    | .accepted op => some (.pending op)
    | _ => none
  | .pending op => if isWriteOf 0x2400 e then some (.measuring op) else none
  | .measuring op =>
    match e with
    | .busRead a [b0, b1, b2, b3, b4, b5] => if a = 0x44 then some (.framed op ⟨b0, b1, b2, b3, b4, b5⟩) else none
    | _ => none
  | .framed op f =>
    match e with
    | .responded op' data => if op' = op ∧ f.valid = true ∧ data = reading op f then some .ready else none
    | .faulted code => if f.valid = false ∧ code = faultCodeOf op then some .down else none
    | _ => none
  | .down => none

/-- The phase a log leads to, if it is the log of a run. -/
def replay (log : List Event) : Option Phase := log.foldlM advance .start

/-- The phase that `ST`, `REQ_Q` and `FRAME` stand for. -/
def State.phase (s : State) : Phase :=
  match s.st with
  | .rstCmd => .start
  | .rstWait => .resetSent
  | .statCmd => .resetSent
  | .statRd => .statusSent
  | .idle => .ready
  | .measCmd => .pending s.reqQ
  | .measWait => .measuring s.reqQ
  | .frameRd => .measuring s.reqQ
  | .chkT => .framed s.reqQ s.frame
  | .chkH => .framed s.reqQ s.frame
  | .conv => .framed s.reqQ s.frame
  | .resp => .framed s.reqQ s.frame
  | .esc => .framed s.reqQ s.frame
  | .fault => .down

/-- The log is that of a run, and the registers agree with it: what has been checked so far holds, and in `S_RESP` the
cached pair is that of the frame of the request being answered. -/
structure HistoryInv (s : State) : Prop where
  slot_empty : s.ext = none
  log_is_run : replay s.log = some s.phase
  temp_checked : s.st = .chkH → s.frame.tempFieldValid = true
  both_checked : s.st = .conv → s.frame.valid = true
  pair_stored : s.st = .resp →
    s.frame.valid = true ∧ s.tempOut = convT s.frame.tword ∧ s.humOut = convH s.frame.hword
  check_failed : s.st = .esc → s.frame.valid = false

/-- A bus transaction as R95 writes it: W(c) or R(n). -/
inductive BusOp where
  | w (code : Half)
  | r (n : Nat)
deriving DecidableEq, Repr

/-- The transaction an event is, if it is one with the device 0x44. -/
def Event.busOp : Event → Option BusOp
  | .busWrite a b0 b1 => if a = 0x44 then some (.w (b0 ++ b1)) else none
  | .busRead a bytes => if a = 0x44 then some (.r bytes.length) else none
  | .accepted _ => none
  | .responded _ _ => none
  | .faulted _ => none

/-- Whether an event is a bus transaction, with any device. -/
def Event.isBus : Event → Bool
  | .busWrite _ _ _ => true
  | .busRead _ _ => true
  | .accepted _ => false
  | .responded _ _ => false
  | .faulted _ => false

/-- Whether an event is the acceptance of a request. -/
def Event.isAccepted : Event → Bool
  | .accepted _ => true
  | .busWrite _ _ _ => false
  | .busRead _ _ => false
  | .responded _ _ => false
  | .faulted _ => false

/-- Whether an event ends a request, by a response or by the fault. -/
def Event.isEnd : Event → Bool
  | .responded _ _ => true
  | .faulted _ => true
  | .busWrite _ _ _ => false
  | .busRead _ _ => false
  | .accepted _ => false

/-! ## What a run can depend on -/

/-- Two states that agree in everything but registers whose value cannot matter any more or not yet: `REQ_Q` while no request
is served, the cells of `FRAME` that are not received or no longer read, `STATUS` before INIT has stored it, the cached
pair outside `S_RESP`. -/
structure SameLive (s t : State) : Prop where
  st : s.st = t.st
  dly : s.dly = t.dly
  rxi : s.rxi = t.rxi
  fault : s.fault = t.fault
  faultCode : s.faultCode = t.faultCode
  inputs : s.inputs = t.inputs
  cycle : s.cycle = t.cycle
  ext : s.ext = t.ext
  log : s.log = t.log
  reqQ : s.st.serving = true → s.reqQ = t.reqQ
  frame_received : s.st = .frameRd → ∀ i, i < s.rxi.toNat → s.frame.read i = t.frame.read i
  frame_held : s.st ∈ [SeqState.chkT, .chkH, .conv] → s.frame = t.frame
  status_high : s.st = .statRd → s.rxi ≠ 0 → highByte s.status = highByte t.status
  status_held : s.st.initDone = true → s.status = t.status
  pair_shown : s.st = .resp → s.tempOut = t.tempOut ∧ s.humOut = t.humOut

/-! ## Error patterns of a field (R103) -/

/-- How many bits of a byte are set. -/
def weight (b : Byte) : Nat := (List.range 8).countP fun i => b.getLsbD i

/-- The syndrome of an error pattern `(e0, e1, e2)` (R103). -/
def syndrome (e0 e1 e2 : Byte) : Byte := crcT (crcT e0 ^^^ e1) ^^^ e2

end Sys2Proof.Machine
end

