-- ==== Sys2Proof/Certificates/Slice0/Obligations.lean ====
section
/-! DEFINITION. The statements about the model, from the spec's numbered rules. A statement that rests on a choice of the
model's (a log entry of notes/assumptions) says so in its docstring. -/

open Sys2Proof Sys2Proof.Machine

/-! ## Encoding -/

/-- The thirteen words of the opcode table, written out from R50 and R55, decode to the instructions they stand for; the two
bytes of a command come most significant first (R49), and a request is a byte with `req_op` in bit 0 (log entry 12). -/
def Obligations.WrittenWordsDecode : Prop :=
  decode [0x30, 0xA2] = .ok .softReset ∧ decode [0xF3, 0x2D] = .ok .readStatus ∧
  decode [0x24, 0x00] = .ok .measHighPoll ∧ decode [0x30, 0x41] = .ok .clearStatus ∧
  decode [0x2C, 0x06] = .ok .measHighStretch ∧ decode [0x24, 0x0B] = .ok .measMedPoll ∧
  decode [0x2C, 0x0D] = .ok .measMedStretch ∧ decode [0x24, 0x16] = .ok .measLowPoll ∧
  decode [0x2C, 0x10] = .ok .measLowStretch ∧ decode [0x30, 0x6D] = .ok .heaterEnable ∧
  decode [0x30, 0x66] = .ok .heaterDisable ∧ decode [0x00] = .ok .rdt ∧ decode [0x01] = .ok .rdh

/-- Decoding inverts encoding, for every instruction. -/
def Obligations.DecodeInvertsEncode : Prop := ∀ i : Instr, decode (encode i) = .ok i

/-- An instruction has one encoding: whatever decodes to it is its encoding. -/
def Obligations.EncodingIsUnique : Prop := ∀ (bytes : List Byte) (i : Instr), decode bytes = .ok i → encode i = bytes

/-- The set of command codes is closed: two bytes are a command exactly when their 16-bit value, first byte high, is one of
the eleven of R50; a byte with a bit above `req_op` and any other number of bytes are no instruction (R60, R61; log
entry 12). -/
def Obligations.OnlyListedWordsDecode : Prop :=
  (∀ b0 b1 : Byte, (∃ i, decode [b0, b1] = .ok i) ↔
    b0.toNat * 256 + b1.toNat ∈
      [0x30A2, 0xF32D, 0x3041, 0x2400, 0x2C06, 0x240B, 0x2C0D, 0x2416, 0x2C10, 0x306D, 0x3066]) ∧
  (∀ b : Byte, (∃ i, decode [b] = .ok i) ↔ b = 0 ∨ b = 1) ∧
  (∀ bytes : List Byte, bytes.length ≠ 1 → bytes.length ≠ 2 → decode bytes = .error (.badLength bytes.length))

/-! ## Reset and the step -/

/-- What the spec fixes of the state after reset (R29): the sequencer at the start of INIT, the counters at 0, no fault. -/
def Obligations.ResetStartsInit : Prop :=
  State.reset.st = .rstCmd ∧ State.reset.dly = 0 ∧ State.reset.rxi = 0 ∧ State.reset.fault = false ∧
    State.reset.faultCode = .noFault

/-- R140: a step that samples `rst = 1` resets CORE whatever it holds, and nothing else happens in it. Of the registers that
become unspecified nothing is said. -/
def Obligations.RstResetsInAnyState : Prop :=
  ∀ s : State, s.sample.rst = true →
    ∃ t, step s = .next t ∧ t.st = .rstCmd ∧ t.dly = 0 ∧ t.rxi = 0 ∧ t.fault = false ∧ t.faultCode = .noFault

/-- The instruction a step runs is the one its bytes decode to, and the step is that instruction and the clock's tick
(R77). -/
def Obligations.StepRunsDecodedInstruction : Prop :=
  ∀ (s : State) (bytes : List Byte) (i : Instr), s.sample.rst = false → s.fetch = some bytes → decode bytes = .ok i →
    step s = andThen (exec i s) State.tick

/-- Where a step's bytes come from (R58, R54): the command of each command state; in `S_IDLE` the integrator's command if
there is one (the model's choice, log entry 5), else the operation on the request port while `req_valid = 1`. The spec gives
the request one bit and no byte; that its byte is 0x00 or 0x01 is the model's choice (log entry 12). -/
def Obligations.FetchedBytes : Prop :=
  ∀ s : State,
    (s.st = .rstCmd → s.fetch = some [0x30, 0xA2]) ∧
    (s.st = .statCmd → s.fetch = some [0xF3, 0x2D]) ∧
    (s.st = .measCmd → s.fetch = some [0x24, 0x00]) ∧
    (∀ c, s.st = .idle → s.ext = some c → s.fetch = some [c.code.extractLsb' 8 8, c.code.extractLsb' 0 8]) ∧
    (s.st = .idle → s.ext = none → s.sample.reqValid = true → s.sample.reqOp = 0 → s.fetch = some [0x00]) ∧
    (s.st = .idle → s.ext = none → s.sample.reqValid = true → s.sample.reqOp = 1 → s.fetch = some [0x01]) ∧
    (s.st = .idle → s.ext = none → s.sample.reqValid = false → s.fetch = none) ∧
    (s.st ∉ [SeqState.rstCmd, .statCmd, .measCmd, .idle] → s.fetch = none)

/-- The bytes of a value outside the closed set are no instruction: running them is refused by name (R60(a)). -/
def Obligations.ForeignCodeRefused : Prop :=
  ∀ (s : State) (code : Half), code ∉ commandCodes →
    runBytes [code.extractLsb' 8 8, code.extractLsb' 0 8] s = .refused (.notAnInstruction (.notACommand code))

/-! ## The instructions -/

/-- R63, for each of the eleven commands: until the transport has ended the write nothing changes; then the command's two
bytes have gone to the device, the high byte first, and no register has changed but `ST`, `DLY`, `RXI` (and the integrator's
slot, log entry 5). -/
def Obligations.CommandsWriteTwoBytesMsbFirst : Prop :=
  ∀ (i : Instr) (code : Half) (s : State), i.commandCode = some code →
    (s.sample.cmdDone = false → exec i s = .next s) ∧
    (s.sample.cmdDone = true →
      ∃ t b0 b1, exec i s = .next t ∧ b0.toNat = code.toNat / 256 ∧ b1.toNat = code.toNat % 256 ∧
        t.log = s.log ++ [.busWrite 0x44 b0 b1] ∧
        t.frame = s.frame ∧ t.reqQ = s.reqQ ∧ t.status = s.status ∧ t.tempOut = s.tempOut ∧ t.humOut = s.humOut ∧
        t.fault = s.fault ∧ t.faultCode = s.faultCode ∧ t.inputs = s.inputs ∧ t.cycle = s.cycle)

/-- `SOFT_RESET` (R65, R79): once written from `S_RST_CMD` it loads the delay counter and starts the reset settle wait; from
anywhere else it is the bus write alone and frees the integrator's slot (log entries 5 and 9). -/
def Obligations.SoftResetStartsSettleWait : Prop :=
  ∀ s : State, s.sample.cmdDone = true →
    (s.st = .rstCmd → exec .softReset s =
      .next { s with dly := Config.resetSettleTicks, st := .rstWait, log := s.log ++ [.busWrite 0x44 0x30 0xA2] }) ∧
    (s.st ≠ .rstCmd → exec .softReset s =
      .next { s with ext := none, log := s.log ++ [.busWrite 0x44 0x30 0xA2] })

/-- `READ_STATUS` (R66, R81): once written from `S_STAT_CMD` it clears the receive index and starts the read, without a
wait; from anywhere else it is the bus write alone and frees the integrator's slot (log entries 5 and 9). -/
def Obligations.ReadStatusStartsStatusRead : Prop :=
  ∀ s : State, s.sample.cmdDone = true →
    (s.st = .statCmd → exec .readStatus s =
      .next { s with rxi := 0, st := .statRd, log := s.log ++ [.busWrite 0x44 0xF3 0x2D] }) ∧
    (s.st ≠ .statCmd → exec .readStatus s =
      .next { s with ext := none, log := s.log ++ [.busWrite 0x44 0xF3 0x2D] })

/-- `MEAS_HIGH_POLL` (R67, R84): once written from `S_MEAS_CMD` it loads the delay counter and starts the measurement
settle wait; from anywhere else it is the bus write alone and frees the integrator's slot (log entries 5 and 9). -/
def Obligations.MeasHighPollStartsSettleWait : Prop :=
  ∀ s : State, s.sample.cmdDone = true →
    (s.st = .measCmd → exec .measHighPoll s =
      .next { s with dly := Config.measSettleTicks, st := .measWait, log := s.log ++ [.busWrite 0x44 0x24 0x00] }) ∧
    (s.st ≠ .measCmd → exec .measHighPoll s =
      .next { s with ext := none, log := s.log ++ [.busWrite 0x44 0x24 0x00] })

/-- The eight constants (R68 to R75, "if emitted"): each is `write_command` of its code and nothing else, and frees the
integrator's slot (log entry 5). -/
def Obligations.ConstantCommandsOnlyWrite : Prop :=
  ∀ s : State, s.sample.cmdDone = true →
    exec .clearStatus s = .next { s with ext := none, log := s.log ++ [.busWrite 0x44 0x30 0x41] } ∧
    exec .measHighStretch s = .next { s with ext := none, log := s.log ++ [.busWrite 0x44 0x2C 0x06] } ∧
    exec .measMedPoll s = .next { s with ext := none, log := s.log ++ [.busWrite 0x44 0x24 0x0B] } ∧
    exec .measMedStretch s = .next { s with ext := none, log := s.log ++ [.busWrite 0x44 0x2C 0x0D] } ∧
    exec .measLowPoll s = .next { s with ext := none, log := s.log ++ [.busWrite 0x44 0x24 0x16] } ∧
    exec .measLowStretch s = .next { s with ext := none, log := s.log ++ [.busWrite 0x44 0x2C 0x10] } ∧
    exec .heaterEnable s = .next { s with ext := none, log := s.log ++ [.busWrite 0x44 0x30 0x6D] } ∧
    exec .heaterDisable s = .next { s with ext := none, log := s.log ++ [.busWrite 0x44 0x30 0x66] }

/-- `RDT` and `RDH` (R117): in `S_IDLE` the request is latched and the measurement cycle starts; in every other state the
request is neither served nor remembered (R123). -/
def Obligations.HostRequestsStartCycle : Prop :=
  ∀ s : State,
    (s.st = .idle →
      exec .rdt s = .next { s with reqQ := .rdt, st := .measCmd, log := s.log ++ [.accepted .rdt] } ∧
      exec .rdh s = .next { s with reqQ := .rdh, st := .measCmd, log := s.log ++ [.accepted .rdh] }) ∧
    (s.st ≠ .idle → exec .rdt s = .next s ∧ exec .rdh s = .next s)

/-- The frame of all thirteen instructions. None of them touches a cell of `FRAME`, `STATUS`, the cached pair, `FAULT`,
`FAULT_CODE` or the inputs, and none takes back an event. Beyond that `SOFT_RESET` and `MEAS_HIGH_POLL` may change only `ST`,
`DLY` and the slot, `READ_STATUS` only `ST`, `RXI` and the slot, the eight constants only the slot, `RDT` and `RDH` only
`ST` and `REQ_Q`. -/
def Obligations.InstructionsKeepTheRest : Prop :=
  ∀ (i : Instr) (s t : State), exec i s = .next t →
    ((∀ k, t.frame.read k = s.frame.read k) ∧ t.status = s.status ∧ t.tempOut = s.tempOut ∧ t.humOut = s.humOut ∧
      t.fault = s.fault ∧ t.faultCode = s.faultCode ∧ t.inputs = s.inputs ∧ t.cycle = s.cycle ∧ s.log <+: t.log) ∧
    (i ≠ .rdt → i ≠ .rdh → t.reqQ = s.reqQ) ∧
    (i ≠ .softReset → i ≠ .measHighPoll → t.dly = s.dly) ∧
    (i ≠ .readStatus → t.rxi = s.rxi) ∧
    (i = .rdt ∨ i = .rdh → t.ext = s.ext) ∧
    (i.format = .cmd16 → i.emitted = false → t.st = s.st)

/-! ## The states of the sequencer, one step each -/

/-- `S_RST_CMD` (R79); what is recorded at the end of the write is `EventsOfAStep`. -/
def Obligations.StepInRstCmd : Prop :=
  ∀ s : State, s.sample.rst = false → s.st = .rstCmd →
    (s.sample.cmdDone = true →
      ∃ l, step s = .next { s.tick with dly := Config.resetSettleTicks, st := .rstWait, log := l }) ∧
    (s.sample.cmdDone = false → step s = .next s.tick) ∧
    (outputs s).cmdValid = true ∧ (outputs s).cmdAddr = 0x44 ∧ (outputs s).cmdData = some 0x30A2

/-- `S_RST_WAIT` (R80): one step, and the whole wait: from `DLY = n` it lasts exactly n + 1 steps. -/
def Obligations.StepInRstWait : Prop :=
  ∀ s : State, s.st = .rstWait →
    (s.sample.rst = false →
      (s.dly = 0 → step s = .next { s.tick with st := .statCmd }) ∧
      (s.dly ≠ 0 → step s = .next { s.tick with dly := s.dly - 1 })) ∧
    (NoReset s (s.dly + 1) →
      (∀ k, k ≤ s.dly → ∃ t, run k s = .next t ∧ t.st = .rstWait ∧ t.dly = s.dly - k) ∧
      ∃ t, run (s.dly + 1) s = .next t ∧ t.st = .statCmd) ∧
    ValidOutputsLow (outputs s)

/-- `S_STAT_CMD` (R81); what is recorded at the end of the write is `EventsOfAStep`. -/
def Obligations.StepInStatCmd : Prop :=
  ∀ s : State, s.sample.rst = false → s.st = .statCmd →
    (s.sample.cmdDone = true → ∃ l, step s = .next { s.tick with rxi := 0, st := .statRd, log := l }) ∧
    (s.sample.cmdDone = false → step s = .next s.tick) ∧
    (outputs s).cmdValid = true ∧ (outputs s).cmdAddr = 0x44 ∧ (outputs s).cmdData = some 0xF32D

/-- `S_STAT_RD` (R82): the first byte goes to `STATUS[15:8]`, the second to `STATUS[7:0]`, any two bytes are accepted, and in
every other state a step does the same whatever `STATUS` holds. What is recorded is `EventsOfAStep`. -/
def Obligations.StepInStatRd : Prop :=
  ∀ s : State, s.sample.rst = false →
    (s.st = .statRd →
      (s.sample.rxValid = true → s.rxi = 0 → step s =
        .next { s.tick with status := s.sample.rxData ++ s.status.extractLsb' 0 8, rxi := 1 }) ∧
      (s.sample.rxValid = true → s.rxi = 1 → ∃ l, step s =
        .next { s.tick with status := s.status.extractLsb' 8 8 ++ s.sample.rxData, st := .idle, log := l }) ∧
      (s.sample.rxValid = false → step s = .next s.tick) ∧
      (outputs s).rdValid = true ∧ (outputs s).rdAddr = 0x44 ∧ (outputs s).rdLen = some 2) ∧
    (s.st ≠ .statRd → ∀ v : Half, step { s with status := v } = andThen (step s) fun t => { t with status := v })

/-- `S_IDLE` (R117), with nothing in the integrator's slot (log entry 5): the only state that accepts a request. -/
def Obligations.StepInIdle : Prop :=
  ∀ s : State, s.sample.rst = false → s.st = .idle → s.ext = none →
    (s.sample.reqValid = true → s.sample.reqOp = 0 → step s =
      .next { s.tick with reqQ := .rdt, st := .measCmd, log := s.log ++ [.accepted .rdt] }) ∧
    (s.sample.reqValid = true → s.sample.reqOp = 1 → step s =
      .next { s.tick with reqQ := .rdh, st := .measCmd, log := s.log ++ [.accepted .rdh] }) ∧
    (s.sample.reqValid = false → step s = .next s.tick) ∧
    (outputs s).reqReady = true ∧ (outputs s).rspValid = false ∧ (outputs s).cmdValid = false ∧
      (outputs s).rdValid = false

/-- `S_MEAS_CMD` (R84); what is recorded at the end of the write is `EventsOfAStep`. -/
def Obligations.StepInMeasCmd : Prop :=
  ∀ s : State, s.sample.rst = false → s.st = .measCmd →
    (s.sample.cmdDone = true →
      ∃ l, step s = .next { s.tick with dly := Config.measSettleTicks, st := .measWait, log := l }) ∧
    (s.sample.cmdDone = false → step s = .next s.tick) ∧
    (outputs s).cmdValid = true ∧ (outputs s).cmdAddr = 0x44 ∧ (outputs s).cmdData = some 0x2400

/-- `S_MEAS_WAIT` (R85): one step, and the whole wait: from `DLY = n` it lasts exactly n + 1 steps. -/
def Obligations.StepInMeasWait : Prop :=
  ∀ s : State, s.st = .measWait →
    (s.sample.rst = false →
      (s.dly = 0 → step s = .next { s.tick with rxi := 0, st := .frameRd }) ∧
      (s.dly ≠ 0 → step s = .next { s.tick with dly := s.dly - 1 })) ∧
    (NoReset s (s.dly + 1) →
      (∀ k, k ≤ s.dly → ∃ t, run k s = .next t ∧ t.st = .measWait ∧ t.dly = s.dly - k) ∧
      ∃ t, run (s.dly + 1) s = .next t ∧ t.st = .frameRd ∧ t.rxi = 0) ∧
    ValidOutputsLow (outputs s)

/-- `S_FRAME_RD` (R86): a byte is stored at index `RXI` and nowhere else; the sixth ends the state and leaves `RXI` at 5. The
values 6 and 7 of `RXI`, which no run reaches, are in `NoSeventhCell`; what is recorded is `EventsOfAStep`. -/
def Obligations.StepInFrameRd : Prop :=
  ∀ s : State, s.sample.rst = false → s.st = .frameRd →
    (s.sample.rxValid = true → s.rxi.toNat < 5 →
      ∃ f, step s = .next { s.tick with frame := f, rxi := s.rxi + 1 } ∧
        f.read s.rxi.toNat = some s.sample.rxData ∧ ∀ k, k ≠ s.rxi.toNat → f.read k = s.frame.read k) ∧
    (s.sample.rxValid = true → s.rxi = 5 →
      ∃ f l, step s = .next { s.tick with frame := f, st := .chkT, log := l } ∧
        f.read 5 = some s.sample.rxData ∧ ∀ k, k ≠ 5 → f.read k = s.frame.read k) ∧
    (s.sample.rxValid = false → step s = .next s.tick) ∧
    (outputs s).rdValid = true ∧ (outputs s).rdAddr = 0x44 ∧ (outputs s).rdLen = some 6

/-- There is no cell `FRAME[6]` (R32): a byte that arrives with `RXI` 6 or 7 stops the model by name, which is the model's
choice (log entry 8) for a case no run reaches. -/
def Obligations.NoSeventhCell : Prop :=
  (∀ (f : Frame) (k : Nat), (f.read k).isSome = true ↔ k < 6) ∧
  ∀ s : State, s.sample.rst = false → s.st = .frameRd → s.sample.rxValid = true → 5 < s.rxi.toNat →
    step s = .fault (.frameIndex s.rxi)

/-- `S_CHK_T` (R87): the first two bytes' checksum is compared with the third, and `ST` alone is written. -/
def Obligations.StepInChkT : Prop :=
  ∀ s : State, s.sample.rst = false → s.st = .chkT →
    (crc8 [s.frame.tempMsb, s.frame.tempLsb] = s.frame.tempCrc → step s = .next { s.tick with st := .chkH }) ∧
    (crc8 [s.frame.tempMsb, s.frame.tempLsb] ≠ s.frame.tempCrc → step s = .next { s.tick with st := .esc })

/-- `S_CHK_H` (R88), which is reached only when the temperature field passed; `ST` alone is written. -/
def Obligations.StepInChkH : Prop :=
  ∀ s : State, s.sample.rst = false → s.st = .chkH →
    (crc8 [s.frame.humMsb, s.frame.humLsb] = s.frame.humCrc → step s = .next { s.tick with st := .conv }) ∧
    (crc8 [s.frame.humMsb, s.frame.humLsb] ≠ s.frame.humCrc → step s = .next { s.tick with st := .esc }) ∧
    (HistoryInv s → crc8 [s.frame.tempMsb, s.frame.tempLsb] = s.frame.tempCrc)

/-- `S_CONV` (R89): both values are stored, each from its own word, in this one step. -/
def Obligations.StepInConv : Prop :=
  ∀ s : State, s.sample.rst = false → s.st = .conv →
    step s = .next { s.tick with
      tempOut := convT (s.frame.tempMsb ++ s.frame.tempLsb), humOut := convH (s.frame.humMsb ++ s.frame.humLsb),
      st := .resp }

/-- `S_RESP` (R120): the response pulse of one step, with the value the request asked for, and nothing held afterwards. What
is recorded is `EventsOfAStep`. -/
def Obligations.StepInResp : Prop :=
  ∀ s : State, s.sample.rst = false → s.st = .resp →
    (∃ l, step s = .next { s.tick with st := .idle, log := l } ∧
      (outputs { s.tick with st := .idle, log := l }).rspValid = false) ∧
    (outputs s).rspValid = true ∧
    (s.reqQ = .rdt → (outputs s).rspOp = some 0 ∧ (outputs s).rspData = some s.tempOut) ∧
    (s.reqQ = .rdh → (outputs s).rspOp = some 1 ∧ (outputs s).rspData = some s.humOut)

/-- `S_ESC` (R121, R129): the fault is raised with the code of the accessor that was called, and nothing else changes; in
this step all valid outputs are 0 and `fault` still is, and no response follows. What is recorded is `EventsOfAStep`. -/
def Obligations.StepInEsc : Prop :=
  ∀ s : State, s.st = .esc →
    (s.sample.rst = false →
      (s.reqQ = .rdt → ∃ l, step s =
        .next { s.tick with fault := true, faultCode := .tempCrcFail, st := .fault, log := l }) ∧
      (s.reqQ = .rdh → ∃ l, step s =
        .next { s.tick with fault := true, faultCode := .humCrcFail, st := .fault, log := l })) ∧
    ValidOutputsLow (outputs s) ∧ (ControlInv s → (outputs s).fault = false ∧ (outputs s).faultCode = 0) ∧
    ∀ k, NoReset s (k + 1) → ∃ t, run (k + 1) s = .next t ∧ t.st = .fault ∧ (outputs t).rspValid = false ∧
      (outputs t).fault = true ∧ (outputs t).faultCode = if s.reqQ = .rdt then 1 else 2

/-- `S_FAULT` (R130): for as long as there is no reset, whatever the other inputs do, no register changes, nothing crosses
the boundary, every valid output is 0 and the fault port shows the fault; a reset starts a new run. -/
def Obligations.FaultIsTerminal : Prop :=
  ∀ (s : State) (k : Nat), s.st = .fault →
    (NoReset s k →
      run k s = .next { s with inputs := s.inputs.drop k, cycle := s.cycle + k }) ∧
    ValidOutputsLow (outputs s) ∧ (outputs s).faultCode = s.faultCode.code ∧
    (ControlInv s → (outputs s).fault = true ∧ s.faultCode ≠ .noFault) ∧
    (s.sample.rst = true → ∃ t, step s = .next t ∧ t.st = .rstCmd ∧ t.fault = false)

/-! ## The outputs -/

/-- Every output port as a function of the registers (R58), wherever it has a meaning. Nothing is in the integrator's slot,
which is the model's own (log entry 5). -/
def Obligations.OutputPorts : Prop :=
  ∀ s : State, s.ext = none →
    ((outputs s).reqReady = true ↔ s.st = .idle) ∧
    ((outputs s).rspValid = true ↔ s.st = .resp) ∧
    (s.st = .resp → (outputs s).rspOp = some (if s.reqQ = .rdt then 0 else 1) ∧
      (outputs s).rspData = some (if s.reqQ = .rdt then s.tempOut else s.humOut)) ∧
    ((outputs s).cmdValid = true ↔ s.st ∈ [SeqState.rstCmd, .statCmd, .measCmd]) ∧
    (outputs s).cmdAddr = 0x44 ∧
    (s.st = .rstCmd → (outputs s).cmdData = some 0x30A2) ∧
    (s.st = .statCmd → (outputs s).cmdData = some 0xF32D) ∧
    (s.st = .measCmd → (outputs s).cmdData = some 0x2400) ∧
    ((outputs s).rdValid = true ↔ s.st ∈ [SeqState.statRd, .frameRd]) ∧
    (outputs s).rdAddr = 0x44 ∧
    (s.st = .statRd → (outputs s).rdLen = some 2) ∧ (s.st = .frameRd → (outputs s).rdLen = some 6) ∧
    (outputs s).fault = s.fault ∧
    (s.faultCode = .noFault → (outputs s).faultCode = 0) ∧
    (s.faultCode = .tempCrcFail → (outputs s).faultCode = 1) ∧
    (s.faultCode = .humCrcFail → (outputs s).faultCode = 2) ∧
    (s.st ∉ [SeqState.rstCmd, .rstWait, .statCmd, .statRd] → (outputs s).statusWord = some s.status)

/-- What a step records of CORE's boundary, in every state: a transaction when it ends, an acceptance, a response, the
fault; nothing else. The log is the model's own (log entry 6), and nothing is in the integrator's slot (log entry 5). -/
def Obligations.EventsOfAStep : Prop :=
  ∀ s t : State, s.sample.rst = false → s.ext = none → step s = .next t →
    (s.st = .rstCmd → t.log = s.log ++ if s.sample.cmdDone then [.busWrite 0x44 0x30 0xA2] else []) ∧
    (s.st = .statCmd → t.log = s.log ++ if s.sample.cmdDone then [.busWrite 0x44 0xF3 0x2D] else []) ∧
    (s.st = .measCmd → t.log = s.log ++ if s.sample.cmdDone then [.busWrite 0x44 0x24 0x00] else []) ∧
    (s.st = .statRd → s.rxi.toNat ≤ 1 → t.log = s.log ++
      if s.sample.rxValid ∧ s.rxi = 1 then [.busRead 0x44 [t.status.extractLsb' 8 8, t.status.extractLsb' 0 8]] else []) ∧
    (s.st = .frameRd → t.log = s.log ++
      if s.sample.rxValid ∧ s.rxi = 5 then [.busRead 0x44 [t.frame.tempMsb, t.frame.tempLsb, t.frame.tempCrc,
        t.frame.humMsb, t.frame.humLsb, t.frame.humCrc]] else []) ∧
    (s.st = .idle → t.log = s.log ++
      if s.sample.reqValid then [.accepted (if s.sample.reqOp = 0 then .rdt else .rdh)] else []) ∧
    (s.st = .resp → t.log = s.log ++ [.responded s.reqQ (if s.reqQ = .rdt then s.tempOut else s.humOut)]) ∧
    (s.st = .esc → t.log = s.log ++ [.faulted (if s.reqQ = .rdt then .tempCrcFail else .humCrcFail)]) ∧
    (s.st ∈ [SeqState.rstWait, .measWait, .chkT, .chkH, .conv, .fault] → t.log = s.log)

/-! ## Runs of many steps -/

/-- From the step in which the end of a command is sampled to the next bus activity there are exactly the load value and one
more steps, all of them with the ports idle (R90). -/
def Obligations.SettleWaitsAreExact : Prop :=
  (∀ s : State, s.st = .measCmd → s.sample.cmdDone = true → NoReset s (Config.measSettleTicks + 2) →
    (∀ k, 1 ≤ k → k ≤ Config.measSettleTicks + 1 →
      ∃ t, run k s = .next t ∧ t.dly = Config.measSettleTicks + 1 - k ∧ ValidOutputsLow (outputs t)) ∧
    ∃ t, run (Config.measSettleTicks + 2) s = .next t ∧ (outputs t).rdValid = true ∧ t.rxi = 0) ∧
  (∀ s : State, s.st = .rstCmd → s.sample.cmdDone = true → NoReset s (Config.resetSettleTicks + 2) →
    (∀ k, 1 ≤ k → k ≤ Config.resetSettleTicks + 1 →
      ∃ t, run k s = .next t ∧ t.dly = Config.resetSettleTicks + 1 - k ∧ ValidOutputsLow (outputs t)) ∧
    ∃ t, run (Config.resetSettleTicks + 2) s = .next t ∧ (outputs t).cmdValid = true ∧ (outputs t).cmdData = some 0xF32D)

/-- The frame receiver (R91): whatever gaps the transport leaves, the read state lasts until the last byte, and then the
bytes stand at their indices in the order they came. -/
def Obligations.ReceiverStoresBytesInOrder : Prop :=
  (∀ (s : State) (b : Nat) (f : Frame), s.st = .frameRd → s.rxi = 0 → NoReset s b → ReadTakes s 0 b f.bytes →
    (∀ k, k < b → ∃ t, run k s = .next t ∧ t.st = .frameRd ∧ t.rxi.toNat = (bytesDelivered s 0 k).length) ∧
    ∃ t, run b s = .next t ∧ t.st = .chkT ∧ t.frame = f ∧ t.rxi = 5) ∧
  (∀ (s : State) (b : Nat) (s0 s1 : Byte), s.st = .statRd → s.rxi = 0 → NoReset s b → ReadTakes s 0 b [s0, s1] →
    (∀ k, k < b → ∃ t, run k s = .next t ∧ t.st = .statRd ∧ t.rxi.toNat = (bytesDelivered s 0 k).length) ∧
    ∃ t, run b s = .next t ∧ t.st = .idle ∧ t.status = s0 ++ s1 ∧ t.rxi = 1)

/-- The result of a measurement cycle as a function of its six bytes (R92): on success both values, on failure neither,
and the temperature field is checked first (R131). -/
def Obligations.CycleResultOfSixBytes : Prop :=
  ∀ s : State, s.st = .chkT → NoReset s 3 →
    (crc8 [s.frame.tempMsb, s.frame.tempLsb] = s.frame.tempCrc → crc8 [s.frame.humMsb, s.frame.humLsb] = s.frame.humCrc →
      ∃ t, run 3 s = .next t ∧ t.st = .resp ∧ t.tempOut = convT (s.frame.tempMsb ++ s.frame.tempLsb) ∧
        t.humOut = convH (s.frame.humMsb ++ s.frame.humLsb)) ∧
    (crc8 [s.frame.tempMsb, s.frame.tempLsb] = s.frame.tempCrc → crc8 [s.frame.humMsb, s.frame.humLsb] ≠ s.frame.humCrc →
      ∃ t, run 2 s = .next t ∧ t.st = .esc ∧ t.tempOut = s.tempOut ∧ t.humOut = s.humOut) ∧
    (crc8 [s.frame.tempMsb, s.frame.tempLsb] ≠ s.frame.tempCrc →
      ∃ t, run 1 s = .next t ∧ t.st = .esc ∧ t.tempOut = s.tempOut ∧ t.humOut = s.humOut)

/-- INIT as a whole (R78, R142): from `S_RST_CMD`, with a transport that answers in any number of steps and any two status
bytes, CORE writes 0x30A2, waits, writes 0xF32D, reads two bytes into `STATUS` and is in `S_IDLE`, without a fault; it
accepts no request before. -/
def Obligations.InitReachesIdle : Prop :=
  ∀ (s : State) (a1 a2 b : Nat) (s0 s1 : Byte), s.st = .rstCmd → s.ext = none →
    NoReset s (a1 + (Config.resetSettleTicks + 1) + a2 + b) →
    CommandTakes s 0 a1 →
    CommandTakes s (a1 + (Config.resetSettleTicks + 1)) a2 →
    ReadTakes s (a1 + (Config.resetSettleTicks + 1) + a2) b [s0, s1] →
    (∃ t, run (a1 + (Config.resetSettleTicks + 1) + a2 + b) s = .next t ∧ t.st = .idle ∧ t.status = s0 ++ s1 ∧
      t.fault = s.fault ∧ (outputs t).reqReady = true ∧
      t.log = s.log ++ [.busWrite 0x44 0x30 0xA2, .busWrite 0x44 0xF3 0x2D, .busRead 0x44 [s0, s1]]) ∧
    ∀ k, k < a1 + (Config.resetSettleTicks + 1) + a2 + b → ∃ t, run k s = .next t ∧ (outputs t).reqReady = false

/-- A host request as a whole (R118, R119, R120, R121, R96): accepted in `S_IDLE`, with a transport that lets the command
last a steps and the read b steps and delivers any six bytes f. If both fields of f are valid, the response of step
`1 + a + (MEAS_SETTLE_TICKS + 1) + b + 3 + 1` carries the value of f that was asked for, both values of f are stored, and
CORE is idle again. Otherwise the run is in `S_FAULT` with the accessor's code, one step earlier if the temperature field
failed, with the cached pair as it was and without a response. -/
def Obligations.RequestRunsWholeCycle : Prop :=
  ∀ (s : State) (a b : Nat) (f : Frame), s.st = .idle → s.ext = none → s.sample.reqValid = true →
    NoReset s (1 + a + (Config.measSettleTicks + 1) + b + 4) →
    CommandTakes s 1 a →
    ReadTakes s (1 + a + (Config.measSettleTicks + 1)) b f.bytes →
    (f.valid = true →
      (∃ t, run (1 + a + (Config.measSettleTicks + 1) + b + 3) s = .next t ∧ (outputs t).rspValid = true ∧
        (outputs t).rspOp = some s.sample.reqOp ∧
        (outputs t).rspData = some (if s.sample.reqOp = 0 then convT f.tword else convH f.hword)) ∧
      ∃ t, run (1 + a + (Config.measSettleTicks + 1) + b + 4) s = .next t ∧ t.st = .idle ∧ t.fault = s.fault ∧
        t.tempOut = convT f.tword ∧ t.humOut = convH f.hword ∧
        t.log = s.log ++ [.accepted (if s.sample.reqOp = 0 then .rdt else .rdh), .busWrite 0x44 0x24 0x00,
          .busRead 0x44 f.bytes,
          .responded (if s.sample.reqOp = 0 then .rdt else .rdh)
            (if s.sample.reqOp = 0 then convT f.tword else convH f.hword)]) ∧
    (f.valid = false →
      ∃ t, run (1 + a + (Config.measSettleTicks + 1) + b + (if f.tempFieldValid then 3 else 2)) s = .next t ∧
        t.st = .fault ∧ t.fault = true ∧
        t.faultCode = (if s.sample.reqOp = 0 then .tempCrcFail else .humCrcFail) ∧
        t.tempOut = s.tempOut ∧ t.humOut = s.humOut ∧ t.frame = f ∧
        t.log = s.log ++ [.accepted (if s.sample.reqOp = 0 then .rdt else .rdh), .busWrite 0x44 0x24 0x00,
          .busRead 0x44 f.bytes, .faulted (if s.sample.reqOp = 0 then .tempCrcFail else .humCrcFail)])

/-- No timeout (R93): in the five states that wait for the transport, CORE waits for any number of steps without a change
while the awaited input does not come. -/
def Obligations.WaitsWithoutBound : Prop :=
  ∀ (s : State) (k : Nat), NoReset s k →
    (s.st ∈ [SeqState.rstCmd, .statCmd, .measCmd] ∧ (∀ j, j < k → (s.sampleAt j).cmdDone = false)) ∨
      (s.st ∈ [SeqState.statRd, .frameRd] ∧ (∀ j, j < k → (s.sampleAt j).rxValid = false)) →
    run k s = .next { s with inputs := s.inputs.drop k, cycle := s.cycle + k } ∧ (outputs s).reqReady = false

/-! ## Invariants -/

/-- The control invariant holds after reset. -/
def Obligations.ControlInvariantAtReset : Prop := ControlInv State.reset

/-- Every step keeps the control invariant (R15, R16, R22, R23, R90, R91, R132, R139). -/
def Obligations.ControlInvariantKept : Prop :=
  ∀ s t : State, ControlInv s → step s = .next t → ControlInv t

/-- Under the control invariant every step goes on: CORE never stops the model (R77: exactly one rule applies in every
step). -/
def Obligations.EveryStepGoesOn : Prop := ∀ s : State, ControlInv s → ∃ t, step s = .next t

/-- The history invariant holds after reset. -/
def Obligations.HistoryInvariantAtReset : Prop := HistoryInv State.reset

/-- Every step keeps the history invariant: what crosses CORE's boundary is always the beginning of a run as R95 and R124
describe it, each response carries the value of its own valid frame, and each fault its accessor's code. -/
def Obligations.HistoryInvariantKept : Prop :=
  ∀ s t : State, HistoryInv s → step s = .next t → HistoryInv t

/-- The bus trace of a run (R95, R76): a beginning of `W(0x30A2), W(0xF32D), R(2), (W(0x2400), R(6))*`, and no transaction
with another device. -/
def Obligations.BusTraceIsPrefix : Prop :=
  ∀ s : State, HistoryInv s →
    (∃ n, s.log.filterMap Event.busOp <+:
      [.w 0x30A2, .w 0xF32D, .r 2] ++ (List.replicate n [BusOp.w 0x2400, BusOp.r 6]).flatten) ∧
    ∀ e ∈ s.log, e.isBus = true → e.busOp.isSome = true

/-- Every accepted request has ended by a response or a fault, but for the one in progress (R124). -/
def Obligations.RequestsEndOnce : Prop :=
  ∀ s : State, HistoryInv s →
    s.log.countP Event.isAccepted = s.log.countP Event.isEnd + (if s.st.serving then 1 else 0)

/-- The cached pair (R30): it changes only in `S_CONV`, which is entered only from `S_CHK_H` with both comparisons true; what
is stored there is both values of the one frame, in the ranges of the conversion. -/
def Obligations.PairChangesOnlyAfterBothChecks : Prop :=
  (∀ s t : State, s.sample.rst = false → step s = .next t → (t.tempOut ≠ s.tempOut ∨ t.humOut ≠ s.humOut) →
    s.st = .conv) ∧
  (∀ s t : State, HistoryInv s → step s = .next t → t.st = .conv →
    s.st = .chkH ∧ crc8 [s.frame.tempMsb, s.frame.tempLsb] = s.frame.tempCrc ∧
      crc8 [s.frame.humMsb, s.frame.humLsb] = s.frame.humCrc ∧ t.frame = s.frame) ∧
  (∀ s : State, s.sample.rst = false → s.st = .conv →
    ∃ t, step s = .next t ∧ t.tempOut = convT (s.frame.tempMsb ++ s.frame.tempLsb) ∧
      t.humOut = convH (s.frame.humMsb ++ s.frame.humLsb) ∧
      -45000 ≤ t.tempOut.toInt ∧ t.tempOut.toInt ≤ 130000 ∧ t.humOut.toNat ≤ 100000)

/-! ## What does not matter -/

/-- A request in a busy state is neither served nor remembered (R123): the request pins make no difference there. -/
def Obligations.BusyRequestsIgnored : Prop :=
  ∀ (s : State) (i : Inputs) (rest : List Inputs) (v : Bool) (op : BitVec 1), s.st ≠ .idle → s.inputs = i :: rest →
    step { s with inputs := { i with reqValid := v, reqOp := op } :: rest } = step s ∧ (outputs s).reqReady = false

/-- `cmd_done` makes no difference while `cmd_valid = 0`, nor `rx_valid` and `rx_data` while `rd_valid = 0` (R36, R37). -/
def Obligations.UnawaitedAnswersIgnored : Prop :=
  ∀ (s : State) (i : Inputs) (rest : List Inputs) (d v : Bool) (b : Byte), s.inputs = i :: rest →
    ((outputs s).cmdValid = true → d = i.cmdDone) → ((outputs s).rdValid = true → v = i.rxValid ∧ b = i.rxData) →
    step { s with inputs := { i with cmdDone := d, rxValid := v, rxData := b } :: rest } = step s

/-- No run depends on a register before it is written (R29, column "first read possible"): two states that differ only in
registers that are not read before their next write show the same outputs, step alike and stay so. -/
def Obligations.UnwrittenRegistersNeverMatter : Prop :=
  ∀ s t : State, SameLive s t →
    outputs s = outputs t ∧
    (∀ s', step s = .next s' → ∃ t', step t = .next t' ∧ SameLive s' t') ∧
    (∀ e, step s = .fault e → step t = .fault e) ∧ (∀ e, step s = .refused e → step t = .refused e)

/-- The state after reset agrees in this sense with any that holds other values in the five registers for which the spec
gives no reset value, so the zeros of log entry 2 are never seen. -/
def Obligations.ResetZerosAreUnseen : Prop :=
  ∀ (f : Frame) (q : ReqOp) (v : Half) (t h : Word),
    SameLive State.reset { State.reset with frame := f, reqQ := q, status := v, tempOut := t, humOut := h }

/-! ## The checksum -/

/-- `crc8` bit by bit (R97, R98): the empty list gives 0xFF; each further byte is exclusive-ored in and followed by eight
rounds; a round doubles modulo 256 and exclusive-ors 0x31 if bit 7 was set before. -/
def Obligations.ChecksumAlgorithm : Prop :=
  crc8 [] = 0xFF ∧
  (∀ (data : List Byte) (b : Byte), crc8 (data ++ [b]) =
    crcRound (crcRound (crcRound (crcRound (crcRound (crcRound (crcRound (crcRound (crc8 data ^^^ b))))))))) ∧
  (∀ acc : Byte, 128 ≤ acc.toNat → crcRound acc = BitVec.ofNat 8 (acc.toNat * 2 % 256) ^^^ 0x31) ∧
  (∀ acc : Byte, acc.toNat < 128 → crcRound acc = BitVec.ofNat 8 (acc.toNat * 2 % 256))

/-- The byte step (R99): T[x] is eight rounds of x, the printed table holds it for every x, each further byte is one look-up,
and two bytes are two. -/
def Obligations.ChecksumTable : Prop :=
  (∀ x : Byte, crcTable x =
    crcRound (crcRound (crcRound (crcRound (crcRound (crcRound (crcRound (crcRound x)))))))) ∧
  (∀ (data : List Byte) (b : Byte), crc8 (data ++ [b]) = crcTable (crc8 data ^^^ b)) ∧
  ∀ b0 b1 : Byte, crc8 [b0, b1] = crcTable (crcTable (0xFF ^^^ b0) ^^^ b1)

/-- The laws of R102(b) to (e): T is linear and a bijection; for a fixed first byte the second and the checksum determine each
other; a field is valid exactly when the checksum of all three bytes is 0; a difference of two inputs shows in the
checksum independently of the inputs. -/
def Obligations.ChecksumLaws : Prop :=
  (∀ x y : Byte, crcT (x ^^^ y) = crcT x ^^^ crcT y) ∧ Function.Bijective crcT ∧
  (∀ d0 : Byte, Function.Bijective fun d1 : Byte => crc8 [d0, d1]) ∧
  (∀ d0 d1 c : Byte, crc8 [d0, d1] = c ↔ crc8 [d0, d1, c] = 0) ∧
  (∀ d0 d1 e0 e1 : Byte, crc8 [d0 ^^^ e0, d1 ^^^ e1] = crc8 [d0, d1] ^^^ crcT (crcT e0 ^^^ e1))

/-- What the validation detects (R103): a valid field changed by a pattern is valid exactly when the pattern's syndrome is
0; patterns with an odd number of bits set never pass; nor do those, other than 0, whose set bits lie within eight
consecutive positions of the 24. -/
def Obligations.ErrorsDetected : Prop :=
  (∀ d0 d1 c e0 e1 e2 : Byte, fieldValid d0 d1 c = true →
    (fieldValid (d0 ^^^ e0) (d1 ^^^ e1) (c ^^^ e2) = true ↔ syndrome e0 e1 e2 = 0)) ∧
  (∀ e0 e1 e2 : Byte, (weight e0 + weight e1 + weight e2) % 2 = 1 → syndrome e0 e1 e2 ≠ 0) ∧
  (∀ (p : Byte) (k : Nat), p ≠ 0 → k ≤ 16 →
    syndrome ((p.setWidth 24 <<< k).extractLsb' 16 8) ((p.setWidth 24 <<< k).extractLsb' 8 8)
      ((p.setWidth 24 <<< k).extractLsb' 0 8) ≠ 0)

/-- A bus stuck low or high fails at the temperature check (R104). -/
def Obligations.StuckBusFails : Prop :=
  crc8 [0x00, 0x00] = 0x81 ∧ crc8 [0xFF, 0xFF] = 0xAC ∧
  ∀ s : State, s.sample.rst = false → s.st = .chkT →
    (s.frame = ⟨0x00, 0x00, 0x00, 0x00, 0x00, 0x00⟩ ∨ s.frame = ⟨0xFF, 0xFF, 0xFF, 0xFF, 0xFF, 0xFF⟩) →
    step s = .next { s.tick with st := .esc }

/-! ## The conversion -/

/-- `conv_t` and `conv_h` (R110, R111), by their pseudocode on unbounded integers. -/
def Obligations.ConversionFormulas : Prop :=
  (∀ w : Half, (convT w).toInt = ((w.toNat * 175000 + 32767) / 65535 : Nat) - 45000) ∧
  (∀ w : Half, (convH w).toNat = (w.toNat * 100000 + 32767) / 65535)

/-- Accuracy and range (R113): the error against the exact maps of R107, times 65535, is at most 32767; the ends of the
ranges are reached at the end words and only there. -/
def Obligations.ConversionAccuracy : Prop :=
  (∀ w : Half, |65535 * (convT w).toInt - (1000 * 175 * (w.toNat : Int) - 1000 * 45 * 65535)| ≤ 32767) ∧
  (∀ w : Half, |65535 * ((convH w).toNat : Int) - 1000 * 100 * (w.toNat : Int)| ≤ 32767) ∧
  (∀ w : Half, -45000 ≤ (convT w).toInt ∧ (convT w).toInt ≤ 130000 ∧ (convH w).toNat ≤ 100000) ∧
  (∀ w : Half, ((convT w).toInt = -45000 ↔ w = 0) ∧ ((convT w).toInt = 130000 ↔ w = 0xFFFF) ∧
    ((convH w).toNat = 0 ↔ w = 0) ∧ ((convH w).toNat = 100000 ↔ w = 0xFFFF))

/-- Monotonicity (R114): both conversions are strictly increasing, in steps of 2 or 3 and of 1 or 2, so no two raw words
give the same output. -/
def Obligations.ConversionStrictlyIncreasing : Prop :=
  (∀ v w : Half, v.toNat < w.toNat → (convT v).toInt < (convT w).toInt ∧ (convH v).toNat < (convH w).toNat) ∧
  (∀ v w : Half, v.toNat + 1 = w.toNat →
    ((convT w).toInt - (convT v).toInt = 2 ∨ (convT w).toInt - (convT v).toInt = 3) ∧
    ((convH w).toNat = (convH v).toNat + 1 ∨ (convH w).toNat = (convH v).toNat + 2)) ∧
  Function.Injective convT ∧ Function.Injective convH

/-! ## Closure of the command set -/

/-- CORE cannot emit a value outside the closed set (R60(a)): in every state the write port carries one of the eleven codes
or none, one of the three of R58 where the integrator's slot is empty (the slot is the model's choice, log entry 5); the code
of each command decodes to an instruction of that code; and no step is refused. -/
def Obligations.OnlyListedCodesOnThePort : Prop :=
  (∀ (s : State) (code : Half), (outputs s).cmdData = some code → code ∈ commandCodes) ∧
  (∀ (s : State) (code : Half), s.ext = none → (outputs s).cmdData = some code →
    code = 0x30A2 ∨ code = 0xF32D ∨ code = 0x2400) ∧
  (∀ c : Command, ∃ i, decode [c.code.extractLsb' 8 8, c.code.extractLsb' 0 8] = .ok i ∧
    i.commandCode = some c.code) ∧
  ∀ (s : State) (why : Refusal), step s ≠ .refused why
end

