-- ==== Sys2Proof/Laws/Config.lean ====
section
/-! SUPPORT. The open parameters: `DLY_W` ranges over the widths R7 admits, both load values fit the delay counter, and
`F_CLK` ranges over the positive values. -/

namespace Sys2Proof.Config

theorem lt_two_pow_leastWidth (n : Nat) : n < 2 ^ leastWidth n := by
  unfold leastWidth
  split
  · simp [*]
  · exact Nat.lt_log2_self

/-- No width below the least one holds n. -/
theorem leastWidth_le {n w : Nat} (h : n < 2 ^ w) : leastWidth n ≤ w := by
  unfold leastWidth
  split
  · exact Nat.zero_le _
  · exact (Nat.log2_lt ‹_›).mpr h

/-- Every width that holds both load values is the least one and some more, so `dlyW` leaves none out. -/
theorem admissible_width_is_reached {w : Nat} (h : max measSettleTicks resetSettleTicks < 2 ^ w) :
    ∃ spare, w = leastWidth (max measSettleTicks resetSettleTicks) + spare :=
  Nat.exists_eq_add_of_le (leastWidth_le h)

theorem fClk_pos : 0 < fClk := mul_self_pos.mpr fClkRoot.ne_zero

/-- Every positive frequency is the square of a nonzero real, so `fClk` leaves none out. -/
theorem positive_frequency_is_reached {f : ℝ} (h : 0 < f) : ∃ root : ℝˣ, root.val * root.val = f :=
  ⟨Units.mk0 (Real.sqrt f) (Real.sqrt_pos.mpr h).ne', Real.mul_self_sqrt h.le⟩

theorem lt_two_pow_dlyW {n : Nat} (h : n ≤ max measSettleTicks resetSettleTicks) : n < 2 ^ dlyW :=
  calc n ≤ max measSettleTicks resetSettleTicks := h
    _ < 2 ^ leastWidth (max measSettleTicks resetSettleTicks) := lt_two_pow_leastWidth _
    _ ≤ 2 ^ dlyW := Nat.pow_le_pow_right (by decide) (Nat.le_add_right _ _)

theorem measSettleTicks_fits : measSettleTicks < 2 ^ dlyW := lt_two_pow_dlyW (Nat.le_max_left _ _)

theorem resetSettleTicks_fits : resetSettleTicks < 2 ^ dlyW := lt_two_pow_dlyW (Nat.le_max_right _ _)

end Sys2Proof.Config
end

