-- ==== Sys2Proof/Laws/Decode.lean ====
section
/-! SUPPORT. The small lemmas of the decoder: a command's bytes and its code determine each other, and the code table lists
what `Instr.commandCode` says. -/

namespace Sys2Proof

/-- The two bytes of a code, joined again. -/
theorem append_commandBytes (code : Half) : code.extractLsb' 8 8 ++ code.extractLsb' 0 8 = code := by
  ext i hi
  simp only [BitVec.getElem_append, BitVec.getElem_extractLsb']
  split
  · simp [BitVec.getLsbD_eq_getElem hi]
  · rw [show 8 + (i - 8) = i by omega, BitVec.getLsbD_eq_getElem hi]

/-- The high byte of two joined bytes. -/
theorem extract_high_append (b0 b1 : Byte) : (b0 ++ b1 : Half).extractLsb' 8 8 = b0 := by
  ext i hi
  simp only [BitVec.getElem_extractLsb', BitVec.getLsbD_append]
  rw [if_neg (by omega), show 8 + i - 8 = i by omega, BitVec.getLsbD_eq_getElem hi]

/-- The low byte of two joined bytes. -/
theorem extract_low_append (b0 b1 : Byte) : (b0 ++ b1 : Half).extractLsb' 0 8 = b1 := by
  ext i hi
  simp only [BitVec.getElem_extractLsb', BitVec.getLsbD_append]
  rw [if_pos (by omega), show 0 + i = i by omega, BitVec.getLsbD_eq_getElem hi]

theorem commandBytes_append (b0 b1 : Byte) : commandBytes (b0 ++ b1) = [b0, b1] := by
  simp [commandBytes, extract_high_append, extract_low_append]

/-- Every entry of the table is the code of its instruction (R50). -/
theorem commandTable_codes : ∀ p ∈ commandTable, p.2.commandCode = some p.1 := by decide

theorem commandCode_of_commandOf {code : Half} {i : Instr} (h : commandOf code = some i) : i.commandCode = some code := by
  have key : ∀ l : List (Half × Instr), (∀ p ∈ l, p.2.commandCode = some p.1) → l.lookup code = some i →
      i.commandCode = some code := by
    intro l
    induction l with
    | nil => intro _ h; simp at h
    | cons p l ih =>
      intro hl h
      rw [List.lookup_cons] at h
      split at h
      next heq =>
        have := hl p (by simp)
        simp only [Option.some.injEq] at h
        rw [h] at this
        rw [this, ← beq_iff_eq.mp heq]
      next => exact ih (fun q hq => hl q (by simp [hq])) h
  exact key commandTable commandTable_codes h

theorem commandOf_of_commandCode {code : Half} {i : Instr} (h : i.commandCode = some code) : commandOf code = some i := by
  cases i <;> simp only [Instr.commandCode, Option.some.injEq, reduceCtorEq] at h <;> subst h <;> rfl

/-- The decoder on the bytes of a code. -/
theorem decode_commandBytes (code : Half) : decode (commandBytes code) = decodeCommand code := by
  simp only [commandBytes, decode, append_commandBytes]

end Sys2Proof
end

