-- ==== Sys2Proof/Laws/State.lean ====
section
/-! SUPPORT. What each register write leaves in each field: one lemma per field and update, so that no later proof unfolds a
record update. -/

namespace Sys2Proof.Machine.State

variable (s : State)

@[simp] theorem goto_st (t : SeqState) : (s.goto t).st = t := rfl
@[simp] theorem goto_dly (t : SeqState) : (s.goto t).dly = s.dly := rfl
@[simp] theorem goto_rxi (t : SeqState) : (s.goto t).rxi = s.rxi := rfl
@[simp] theorem goto_frame (t : SeqState) : (s.goto t).frame = s.frame := rfl
@[simp] theorem goto_reqQ (t : SeqState) : (s.goto t).reqQ = s.reqQ := rfl
@[simp] theorem goto_status (t : SeqState) : (s.goto t).status = s.status := rfl
@[simp] theorem goto_tempOut (t : SeqState) : (s.goto t).tempOut = s.tempOut := rfl
@[simp] theorem goto_humOut (t : SeqState) : (s.goto t).humOut = s.humOut := rfl
@[simp] theorem goto_fault (t : SeqState) : (s.goto t).fault = s.fault := rfl
@[simp] theorem goto_faultCode (t : SeqState) : (s.goto t).faultCode = s.faultCode := rfl
@[simp] theorem goto_inputs (t : SeqState) : (s.goto t).inputs = s.inputs := rfl
@[simp] theorem goto_cycle (t : SeqState) : (s.goto t).cycle = s.cycle := rfl
@[simp] theorem goto_ext (t : SeqState) : (s.goto t).ext = s.ext := rfl
@[simp] theorem goto_log (t : SeqState) : (s.goto t).log = s.log := rfl
@[simp] theorem goto_sample (t : SeqState) : (s.goto t).sample = s.sample := rfl

@[simp] theorem setDly_st (n : Nat) : (s.setDly n).st = s.st := rfl
@[simp] theorem setDly_dly (n : Nat) : (s.setDly n).dly = n := rfl
@[simp] theorem setDly_rxi (n : Nat) : (s.setDly n).rxi = s.rxi := rfl
@[simp] theorem setDly_frame (n : Nat) : (s.setDly n).frame = s.frame := rfl
@[simp] theorem setDly_reqQ (n : Nat) : (s.setDly n).reqQ = s.reqQ := rfl
@[simp] theorem setDly_status (n : Nat) : (s.setDly n).status = s.status := rfl
@[simp] theorem setDly_tempOut (n : Nat) : (s.setDly n).tempOut = s.tempOut := rfl
@[simp] theorem setDly_humOut (n : Nat) : (s.setDly n).humOut = s.humOut := rfl
@[simp] theorem setDly_fault (n : Nat) : (s.setDly n).fault = s.fault := rfl
@[simp] theorem setDly_faultCode (n : Nat) : (s.setDly n).faultCode = s.faultCode := rfl
@[simp] theorem setDly_inputs (n : Nat) : (s.setDly n).inputs = s.inputs := rfl
@[simp] theorem setDly_cycle (n : Nat) : (s.setDly n).cycle = s.cycle := rfl
@[simp] theorem setDly_ext (n : Nat) : (s.setDly n).ext = s.ext := rfl
@[simp] theorem setDly_log (n : Nat) : (s.setDly n).log = s.log := rfl
@[simp] theorem setDly_sample (n : Nat) : (s.setDly n).sample = s.sample := rfl

@[simp] theorem setRxi_st (i : BitVec 3) : (s.setRxi i).st = s.st := rfl
@[simp] theorem setRxi_dly (i : BitVec 3) : (s.setRxi i).dly = s.dly := rfl
@[simp] theorem setRxi_rxi (i : BitVec 3) : (s.setRxi i).rxi = i := rfl
@[simp] theorem setRxi_frame (i : BitVec 3) : (s.setRxi i).frame = s.frame := rfl
@[simp] theorem setRxi_reqQ (i : BitVec 3) : (s.setRxi i).reqQ = s.reqQ := rfl
@[simp] theorem setRxi_status (i : BitVec 3) : (s.setRxi i).status = s.status := rfl
@[simp] theorem setRxi_tempOut (i : BitVec 3) : (s.setRxi i).tempOut = s.tempOut := rfl
@[simp] theorem setRxi_humOut (i : BitVec 3) : (s.setRxi i).humOut = s.humOut := rfl
@[simp] theorem setRxi_fault (i : BitVec 3) : (s.setRxi i).fault = s.fault := rfl
@[simp] theorem setRxi_faultCode (i : BitVec 3) : (s.setRxi i).faultCode = s.faultCode := rfl
@[simp] theorem setRxi_inputs (i : BitVec 3) : (s.setRxi i).inputs = s.inputs := rfl
@[simp] theorem setRxi_cycle (i : BitVec 3) : (s.setRxi i).cycle = s.cycle := rfl
@[simp] theorem setRxi_ext (i : BitVec 3) : (s.setRxi i).ext = s.ext := rfl
@[simp] theorem setRxi_log (i : BitVec 3) : (s.setRxi i).log = s.log := rfl
@[simp] theorem setRxi_sample (i : BitVec 3) : (s.setRxi i).sample = s.sample := rfl

@[simp] theorem setFrame_st (f : Frame) : (s.setFrame f).st = s.st := rfl
@[simp] theorem setFrame_dly (f : Frame) : (s.setFrame f).dly = s.dly := rfl
@[simp] theorem setFrame_rxi (f : Frame) : (s.setFrame f).rxi = s.rxi := rfl
@[simp] theorem setFrame_frame (f : Frame) : (s.setFrame f).frame = f := rfl
@[simp] theorem setFrame_reqQ (f : Frame) : (s.setFrame f).reqQ = s.reqQ := rfl
@[simp] theorem setFrame_status (f : Frame) : (s.setFrame f).status = s.status := rfl
@[simp] theorem setFrame_tempOut (f : Frame) : (s.setFrame f).tempOut = s.tempOut := rfl
@[simp] theorem setFrame_humOut (f : Frame) : (s.setFrame f).humOut = s.humOut := rfl
@[simp] theorem setFrame_fault (f : Frame) : (s.setFrame f).fault = s.fault := rfl
@[simp] theorem setFrame_faultCode (f : Frame) : (s.setFrame f).faultCode = s.faultCode := rfl
@[simp] theorem setFrame_inputs (f : Frame) : (s.setFrame f).inputs = s.inputs := rfl
@[simp] theorem setFrame_cycle (f : Frame) : (s.setFrame f).cycle = s.cycle := rfl
@[simp] theorem setFrame_ext (f : Frame) : (s.setFrame f).ext = s.ext := rfl
@[simp] theorem setFrame_log (f : Frame) : (s.setFrame f).log = s.log := rfl
@[simp] theorem setFrame_sample (f : Frame) : (s.setFrame f).sample = s.sample := rfl

@[simp] theorem setReqQ_st (op : ReqOp) : (s.setReqQ op).st = s.st := rfl
@[simp] theorem setReqQ_dly (op : ReqOp) : (s.setReqQ op).dly = s.dly := rfl
@[simp] theorem setReqQ_rxi (op : ReqOp) : (s.setReqQ op).rxi = s.rxi := rfl
@[simp] theorem setReqQ_frame (op : ReqOp) : (s.setReqQ op).frame = s.frame := rfl
@[simp] theorem setReqQ_reqQ (op : ReqOp) : (s.setReqQ op).reqQ = op := rfl
@[simp] theorem setReqQ_status (op : ReqOp) : (s.setReqQ op).status = s.status := rfl
@[simp] theorem setReqQ_tempOut (op : ReqOp) : (s.setReqQ op).tempOut = s.tempOut := rfl
@[simp] theorem setReqQ_humOut (op : ReqOp) : (s.setReqQ op).humOut = s.humOut := rfl
@[simp] theorem setReqQ_fault (op : ReqOp) : (s.setReqQ op).fault = s.fault := rfl
@[simp] theorem setReqQ_faultCode (op : ReqOp) : (s.setReqQ op).faultCode = s.faultCode := rfl
@[simp] theorem setReqQ_inputs (op : ReqOp) : (s.setReqQ op).inputs = s.inputs := rfl
@[simp] theorem setReqQ_cycle (op : ReqOp) : (s.setReqQ op).cycle = s.cycle := rfl
@[simp] theorem setReqQ_ext (op : ReqOp) : (s.setReqQ op).ext = s.ext := rfl
@[simp] theorem setReqQ_log (op : ReqOp) : (s.setReqQ op).log = s.log := rfl
@[simp] theorem setReqQ_sample (op : ReqOp) : (s.setReqQ op).sample = s.sample := rfl

@[simp] theorem setStatus_st (v : Half) : (s.setStatus v).st = s.st := rfl
@[simp] theorem setStatus_dly (v : Half) : (s.setStatus v).dly = s.dly := rfl
@[simp] theorem setStatus_rxi (v : Half) : (s.setStatus v).rxi = s.rxi := rfl
@[simp] theorem setStatus_frame (v : Half) : (s.setStatus v).frame = s.frame := rfl
@[simp] theorem setStatus_reqQ (v : Half) : (s.setStatus v).reqQ = s.reqQ := rfl
@[simp] theorem setStatus_status (v : Half) : (s.setStatus v).status = v := rfl
@[simp] theorem setStatus_tempOut (v : Half) : (s.setStatus v).tempOut = s.tempOut := rfl
@[simp] theorem setStatus_humOut (v : Half) : (s.setStatus v).humOut = s.humOut := rfl
@[simp] theorem setStatus_fault (v : Half) : (s.setStatus v).fault = s.fault := rfl
@[simp] theorem setStatus_faultCode (v : Half) : (s.setStatus v).faultCode = s.faultCode := rfl
@[simp] theorem setStatus_inputs (v : Half) : (s.setStatus v).inputs = s.inputs := rfl
@[simp] theorem setStatus_cycle (v : Half) : (s.setStatus v).cycle = s.cycle := rfl
@[simp] theorem setStatus_ext (v : Half) : (s.setStatus v).ext = s.ext := rfl
@[simp] theorem setStatus_log (v : Half) : (s.setStatus v).log = s.log := rfl
@[simp] theorem setStatus_sample (v : Half) : (s.setStatus v).sample = s.sample := rfl

@[simp] theorem setReading_st (t h : Word) : (s.setReading t h).st = s.st := rfl
@[simp] theorem setReading_dly (t h : Word) : (s.setReading t h).dly = s.dly := rfl
@[simp] theorem setReading_rxi (t h : Word) : (s.setReading t h).rxi = s.rxi := rfl
@[simp] theorem setReading_frame (t h : Word) : (s.setReading t h).frame = s.frame := rfl
@[simp] theorem setReading_reqQ (t h : Word) : (s.setReading t h).reqQ = s.reqQ := rfl
@[simp] theorem setReading_status (t h : Word) : (s.setReading t h).status = s.status := rfl
@[simp] theorem setReading_tempOut (t h : Word) : (s.setReading t h).tempOut = t := rfl
@[simp] theorem setReading_humOut (t h : Word) : (s.setReading t h).humOut = h := rfl
@[simp] theorem setReading_fault (t h : Word) : (s.setReading t h).fault = s.fault := rfl
@[simp] theorem setReading_faultCode (t h : Word) : (s.setReading t h).faultCode = s.faultCode := rfl
@[simp] theorem setReading_inputs (t h : Word) : (s.setReading t h).inputs = s.inputs := rfl
@[simp] theorem setReading_cycle (t h : Word) : (s.setReading t h).cycle = s.cycle := rfl
@[simp] theorem setReading_ext (t h : Word) : (s.setReading t h).ext = s.ext := rfl
@[simp] theorem setReading_log (t h : Word) : (s.setReading t h).log = s.log := rfl
@[simp] theorem setReading_sample (t h : Word) : (s.setReading t h).sample = s.sample := rfl

@[simp] theorem setFault_st (c : FaultCode) : (s.setFault c).st = s.st := rfl
@[simp] theorem setFault_dly (c : FaultCode) : (s.setFault c).dly = s.dly := rfl
@[simp] theorem setFault_rxi (c : FaultCode) : (s.setFault c).rxi = s.rxi := rfl
@[simp] theorem setFault_frame (c : FaultCode) : (s.setFault c).frame = s.frame := rfl
@[simp] theorem setFault_reqQ (c : FaultCode) : (s.setFault c).reqQ = s.reqQ := rfl
@[simp] theorem setFault_status (c : FaultCode) : (s.setFault c).status = s.status := rfl
@[simp] theorem setFault_tempOut (c : FaultCode) : (s.setFault c).tempOut = s.tempOut := rfl
@[simp] theorem setFault_humOut (c : FaultCode) : (s.setFault c).humOut = s.humOut := rfl
@[simp] theorem setFault_fault (c : FaultCode) : (s.setFault c).fault = true := rfl
@[simp] theorem setFault_faultCode (c : FaultCode) : (s.setFault c).faultCode = c := rfl
@[simp] theorem setFault_inputs (c : FaultCode) : (s.setFault c).inputs = s.inputs := rfl
@[simp] theorem setFault_cycle (c : FaultCode) : (s.setFault c).cycle = s.cycle := rfl
@[simp] theorem setFault_ext (c : FaultCode) : (s.setFault c).ext = s.ext := rfl
@[simp] theorem setFault_log (c : FaultCode) : (s.setFault c).log = s.log := rfl
@[simp] theorem setFault_sample (c : FaultCode) : (s.setFault c).sample = s.sample := rfl

@[simp] theorem retireExt_st : (s.retireExt).st = s.st := rfl
@[simp] theorem retireExt_dly : (s.retireExt).dly = s.dly := rfl
@[simp] theorem retireExt_rxi : (s.retireExt).rxi = s.rxi := rfl
@[simp] theorem retireExt_frame : (s.retireExt).frame = s.frame := rfl
@[simp] theorem retireExt_reqQ : (s.retireExt).reqQ = s.reqQ := rfl
@[simp] theorem retireExt_status : (s.retireExt).status = s.status := rfl
@[simp] theorem retireExt_tempOut : (s.retireExt).tempOut = s.tempOut := rfl
@[simp] theorem retireExt_humOut : (s.retireExt).humOut = s.humOut := rfl
@[simp] theorem retireExt_fault : (s.retireExt).fault = s.fault := rfl
@[simp] theorem retireExt_faultCode : (s.retireExt).faultCode = s.faultCode := rfl
@[simp] theorem retireExt_inputs : (s.retireExt).inputs = s.inputs := rfl
@[simp] theorem retireExt_cycle : (s.retireExt).cycle = s.cycle := rfl
@[simp] theorem retireExt_ext : (s.retireExt).ext = none := rfl
@[simp] theorem retireExt_log : (s.retireExt).log = s.log := rfl
@[simp] theorem retireExt_sample : (s.retireExt).sample = s.sample := rfl

@[simp] theorem record_st (e : Event) : (s.record e).st = s.st := rfl
@[simp] theorem record_dly (e : Event) : (s.record e).dly = s.dly := rfl
@[simp] theorem record_rxi (e : Event) : (s.record e).rxi = s.rxi := rfl
@[simp] theorem record_frame (e : Event) : (s.record e).frame = s.frame := rfl
@[simp] theorem record_reqQ (e : Event) : (s.record e).reqQ = s.reqQ := rfl
@[simp] theorem record_status (e : Event) : (s.record e).status = s.status := rfl
@[simp] theorem record_tempOut (e : Event) : (s.record e).tempOut = s.tempOut := rfl
@[simp] theorem record_humOut (e : Event) : (s.record e).humOut = s.humOut := rfl
@[simp] theorem record_fault (e : Event) : (s.record e).fault = s.fault := rfl
@[simp] theorem record_faultCode (e : Event) : (s.record e).faultCode = s.faultCode := rfl
@[simp] theorem record_inputs (e : Event) : (s.record e).inputs = s.inputs := rfl
@[simp] theorem record_cycle (e : Event) : (s.record e).cycle = s.cycle := rfl
@[simp] theorem record_ext (e : Event) : (s.record e).ext = s.ext := rfl
@[simp] theorem record_log (e : Event) : (s.record e).log = s.log ++ [e] := rfl
@[simp] theorem record_sample (e : Event) : (s.record e).sample = s.sample := rfl

@[simp] theorem busWrite_st (code : Half) : (s.busWrite code).st = s.st := rfl
@[simp] theorem busWrite_dly (code : Half) : (s.busWrite code).dly = s.dly := rfl
@[simp] theorem busWrite_rxi (code : Half) : (s.busWrite code).rxi = s.rxi := rfl
@[simp] theorem busWrite_frame (code : Half) : (s.busWrite code).frame = s.frame := rfl
@[simp] theorem busWrite_reqQ (code : Half) : (s.busWrite code).reqQ = s.reqQ := rfl
@[simp] theorem busWrite_status (code : Half) : (s.busWrite code).status = s.status := rfl
@[simp] theorem busWrite_tempOut (code : Half) : (s.busWrite code).tempOut = s.tempOut := rfl
@[simp] theorem busWrite_humOut (code : Half) : (s.busWrite code).humOut = s.humOut := rfl
@[simp] theorem busWrite_fault (code : Half) : (s.busWrite code).fault = s.fault := rfl
@[simp] theorem busWrite_faultCode (code : Half) : (s.busWrite code).faultCode = s.faultCode := rfl
@[simp] theorem busWrite_inputs (code : Half) : (s.busWrite code).inputs = s.inputs := rfl
@[simp] theorem busWrite_cycle (code : Half) : (s.busWrite code).cycle = s.cycle := rfl
@[simp] theorem busWrite_ext (code : Half) : (s.busWrite code).ext = s.ext := rfl
@[simp] theorem busWrite_log (code : Half) : (s.busWrite code).log = s.log ++ [.busWrite devAddr (highByte code) (lowByte code)] := rfl
@[simp] theorem busWrite_sample (code : Half) : (s.busWrite code).sample = s.sample := rfl

@[simp] theorem tick_st : (s.tick).st = s.st := rfl
@[simp] theorem tick_dly : (s.tick).dly = s.dly := rfl
@[simp] theorem tick_rxi : (s.tick).rxi = s.rxi := rfl
@[simp] theorem tick_frame : (s.tick).frame = s.frame := rfl
@[simp] theorem tick_reqQ : (s.tick).reqQ = s.reqQ := rfl
@[simp] theorem tick_status : (s.tick).status = s.status := rfl
@[simp] theorem tick_tempOut : (s.tick).tempOut = s.tempOut := rfl
@[simp] theorem tick_humOut : (s.tick).humOut = s.humOut := rfl
@[simp] theorem tick_fault : (s.tick).fault = s.fault := rfl
@[simp] theorem tick_faultCode : (s.tick).faultCode = s.faultCode := rfl
@[simp] theorem tick_inputs : (s.tick).inputs = s.inputs.tail := rfl
@[simp] theorem tick_cycle : (s.tick).cycle = s.cycle + 1 := rfl
@[simp] theorem tick_ext : (s.tick).ext = s.ext := rfl
@[simp] theorem tick_log : (s.tick).log = s.log := rfl

end Sys2Proof.Machine.State
end

