-- ==== Sys2Proof/Laws/Ops.lean ====
section
/-! SUPPORT. What each shared operation can do, said once: the frame buffer's cells, the bus write, the acceptance of a
request. -/

namespace Sys2Proof.Machine

/-! ## Commands -/

theorem Command.instr_commandCode (c : Command) : c.instr.commandCode = some c.code := by cases c <;> rfl

/-- The code of a command is of the closed set (R60(a)). -/
theorem Command.code_mem (c : Command) : c.code ∈ commandCodes := by cases c <;> decide

theorem Command.ofCode_code (c : Command) : Command.ofCode c.code = some c := by cases c <;> decide

/-- The bytes of a command decode to it. -/
theorem decode_command (c : Command) : decode (commandBytes c.code) = .ok c.instr := by cases c <;> decide

/-! ## The cells of the frame buffer (R17, R32) -/

theorem Frame.write_isSome (f : Frame) (i : Nat) (b : Byte) : (f.write i b).isSome = decide (i < 6) := by
  match i with
  | 0 | 1 | 2 | 3 | 4 | 5 => rfl
  | n + 6 => simp [Frame.write]

theorem Frame.read_write_self {f g : Frame} {i : Nat} {b : Byte} (h : f.write i b = some g) : g.read i = some b := by
  match i with
  | 0 | 1 | 2 | 3 | 4 | 5 => cases h; rfl
  | n + 6 => cases h

theorem Frame.read_write_ne {f g : Frame} {i k : Nat} {b : Byte} (h : f.write i b = some g) (hk : k ≠ i) :
    g.read k = f.read k := by
  match i with
  | 0 | 1 | 2 | 3 | 4 | 5 =>
    cases h
    match k with
    | 0 | 1 | 2 | 3 | 4 | 5 => first | rfl | exact absurd rfl hk
    | n + 6 => rfl
  | n + 6 => cases h

/-- A frame is its six cells. -/
theorem Frame.ext_read {f g : Frame} (h : ∀ k, k < 6 → f.read k = g.read k) : f = g := by
  have h0 := h 0 (by decide)
  have h1 := h 1 (by decide)
  have h2 := h 2 (by decide)
  have h3 := h 3 (by decide)
  have h4 := h 4 (by decide)
  have h5 := h 5 (by decide)
  simp only [Frame.read, Option.some.injEq] at h0 h1 h2 h3 h4 h5
  cases f
  cases g
  simp_all

/-! ## The bus write and the request -/

theorem writeCommand_done {code : Half} {follow : State → State} {s : State} (h : s.sample.cmdDone = true) :
    writeCommand code follow s = .next (follow (s.busWrite code)) := by simp [writeCommand, h]

theorem writeCommand_wait {code : Half} {follow : State → State} {s : State} (h : s.sample.cmdDone = false) :
    writeCommand code follow s = .next s := by simp [writeCommand, h]

theorem followFrom_here {here : SeqState} {enter : State → State} {s : State} (h : s.st = here) :
    followFrom here enter s = enter s := by simp [followFrom, h]

theorem followFrom_elsewhere {here : SeqState} {enter : State → State} {s : State} (h : s.st ≠ here) :
    followFrom here enter s = s.retireExt := by simp [followFrom, h]

theorem acceptRequest_idle {op : ReqOp} {s : State} (h : s.st = .idle) :
    acceptRequest op s = ((s.setReqQ op).goto .measCmd).record (.accepted op) := by simp [acceptRequest, h]

theorem acceptRequest_busy {op : ReqOp} {s : State} (h : s.st ≠ .idle) : acceptRequest op s = s := by
  simp [acceptRequest, h]

/-- An outcome that goes on after a further action went on before it. -/
theorem andThen_next {r : Result} {f : State → State} {t : State} (h : andThen r f = .next t) :
    ∃ u, r = .next u ∧ t = f u := by
  cases r with
  | next u => exact ⟨u, rfl, by simpa [andThen] using h.symm⟩
  | fault e => simp [andThen] at h
  | refused e => simp [andThen] at h

end Sys2Proof.Machine
end

