-- ==== Sys2Proof/Laws/Clock.lean ====
section
/-! SUPPORT. What a step can do, said once: the action of each state, and one inversion lemma for all of them. -/

namespace Sys2Proof.Machine

theorem step_of_rst {s : State} (h : s.sample.rst = true) : step s = .next (resetStep s) := by
  simp [step, clockCycle, h]

theorem step_of_act {s : State} (h : s.sample.rst = false) : step s = andThen s.act State.tick := by
  simp [step, clockCycle, h]

theorem step_of_act_next {s u : State} (h : s.sample.rst = false) (hu : s.act = .next u) : step s = .next u.tick := by
  rw [step_of_act h, hu]; rfl

/-! ## The action of each state -/

theorem act_rstCmd {s : State} (h : s.st = .rstCmd) : s.act = execSoftReset s := by
  simp only [State.act, State.fetch, State.commandOut, h]
  rfl

theorem act_statCmd {s : State} (h : s.st = .statCmd) : s.act = execReadStatus s := by
  simp only [State.act, State.fetch, State.commandOut, h]
  rfl

theorem act_measCmd {s : State} (h : s.st = .measCmd) : s.act = execMeasHighPoll s := by
  simp only [State.act, State.fetch, State.commandOut, h]
  rfl

/-- Running the bytes of a command is executing it. -/
theorem runBytes_command (c : Command) (s : State) : runBytes (commandBytes c.code) s = exec c.instr s := by
  rw [runBytes, decode_command]

theorem act_idle_ext {s : State} {c : Command} (h : s.st = .idle) (he : s.ext = some c) : s.act = exec c.instr s := by
  simp only [State.act, State.fetch, State.commandOut, h, he, runBytes_command]

theorem act_idle_request {s : State} (h : s.st = .idle) (he : s.ext = none) (hv : s.sample.reqValid = true) :
    s.act = .next (acceptRequest (.ofCode s.sample.reqOp) s) := by
  have hop : s.sample.reqOp = 0 ∨ s.sample.reqOp = 1 := by
    generalize s.sample.reqOp = op
    revert op
    decide
  simp only [State.act, State.fetch, State.commandOut, h, he, hv]
  rcases hop with ho | ho <;> rw [ho] <;> rfl

theorem act_idle_quiet {s : State} (h : s.st = .idle) (he : s.ext = none) (hv : s.sample.reqValid = false) :
    s.act = .next s := by
  simp [State.act, State.fetch, State.commandOut, h, he, hv, sequencerRule]

theorem act_rstWait {s : State} (h : s.st = .rstWait) : s.act = ruleRstWait s := by
  simp [State.act, State.fetch, State.commandOut, h, sequencerRule]

theorem act_statRd {s : State} (h : s.st = .statRd) : s.act = ruleStatRd s := by
  simp [State.act, State.fetch, State.commandOut, h, sequencerRule]

theorem act_measWait {s : State} (h : s.st = .measWait) : s.act = ruleMeasWait s := by
  simp [State.act, State.fetch, State.commandOut, h, sequencerRule]

theorem act_frameRd {s : State} (h : s.st = .frameRd) : s.act = ruleFrameRd s := by
  simp [State.act, State.fetch, State.commandOut, h, sequencerRule]

theorem act_chkT {s : State} (h : s.st = .chkT) : s.act = ruleChkT s := by
  simp [State.act, State.fetch, State.commandOut, h, sequencerRule]

theorem act_chkH {s : State} (h : s.st = .chkH) : s.act = ruleChkH s := by
  simp [State.act, State.fetch, State.commandOut, h, sequencerRule]

theorem act_conv {s : State} (h : s.st = .conv) : s.act = ruleConv s := by
  simp [State.act, State.fetch, State.commandOut, h, sequencerRule]

theorem act_resp {s : State} (h : s.st = .resp) : s.act = ruleResp s := by
  simp [State.act, State.fetch, State.commandOut, h, sequencerRule]

theorem act_esc {s : State} (h : s.st = .esc) : s.act = ruleEsc s := by
  simp [State.act, State.fetch, State.commandOut, h, sequencerRule]

theorem act_fault {s : State} (h : s.st = .fault) : s.act = .next s := by
  simp [State.act, State.fetch, State.commandOut, h, sequencerRule]

/-! ## Running the integrator's command -/

/-- Every command is `write_command` of its code; run from `S_IDLE` it is followed by the end of the slot (R63). -/
theorem exec_command {i : Instr} {code : Half} (h : i.commandCode = some code) :
    ∃ follow : State → State, (∀ s, exec i s = writeCommand code follow s) ∧
      ∀ v : State, v.st = .idle → follow v = v.retireExt := by
  cases i <;> simp only [Instr.commandCode, Option.some.injEq, reduceCtorEq] at h <;> subst h
  case softReset => exact ⟨_, fun _ => rfl, fun v hv => followFrom_elsewhere (by simp [hv])⟩
  case readStatus => exact ⟨_, fun _ => rfl, fun v hv => followFrom_elsewhere (by simp [hv])⟩
  case measHighPoll => exact ⟨_, fun _ => rfl, fun v hv => followFrom_elsewhere (by simp [hv])⟩
  all_goals exact ⟨_, fun _ => rfl, fun _ _ => rfl⟩

/-- What a step does with the integrator's command: a wait, or its bus write and the end of the slot. -/
theorem exec_from_slot {s : State} (c : Command) (h : s.st = .idle) :
    exec c.instr s = .next (if s.sample.cmdDone then (s.busWrite c.code).retireExt else s) := by
  obtain ⟨follow, he, hf⟩ := exec_command c.instr_commandCode
  cases hd : s.sample.cmdDone with
  | false => rw [he, writeCommand_wait hd]; rfl
  | true => rw [he, writeCommand_done hd, hf _ (show (s.busWrite c.code).st = .idle by simp [h])]; rfl

/-! ## All that a step can do -/

/-- The actions a step without reset can take, each with the conditions under which it is taken. -/
inductive Acts (s : State) : State → Prop
  | commandPending : s.st ∈ [SeqState.rstCmd, .statCmd, .measCmd] → s.sample.cmdDone = false → Acts s s
  | readPending : s.st ∈ [SeqState.statRd, .frameRd] → s.sample.rxValid = false → Acts s s
  | slotPending (c : Command) : s.st = .idle → s.ext = some c → s.sample.cmdDone = false → Acts s s
  | noRequest : s.st = .idle → s.ext = none → s.sample.reqValid = false → Acts s s
  | afterFault : s.st = .fault → Acts s s
  | resetSent : s.st = .rstCmd → s.sample.cmdDone = true →
      Acts s (((s.busWrite 0x30A2).setDly Config.resetSettleTicks).goto .rstWait)
  | resetTick : s.st = .rstWait → s.dly ≠ 0 → Acts s (s.setDly (s.dly - 1))
  | resetSettled : s.st = .rstWait → s.dly = 0 → Acts s (s.goto .statCmd)
  | statusSent : s.st = .statCmd → s.sample.cmdDone = true → Acts s (((s.busWrite 0xF32D).setRxi 0).goto .statRd)
  | statusHigh : s.st = .statRd → s.sample.rxValid = true → s.rxi = 0 →
      Acts s ((s.setStatus (withHighByte s.status s.sample.rxData)).setRxi 1)
  | statusLow : s.st = .statRd → s.sample.rxValid = true → s.rxi ≠ 0 →
      Acts s (((s.setStatus (withLowByte s.status s.sample.rxData)).goto .idle).record
        (.busRead devAddr [highByte s.status, s.sample.rxData]))
  | slotSent (c : Command) : s.st = .idle → s.ext = some c → s.sample.cmdDone = true →
      Acts s ((s.busWrite c.code).retireExt)
  | accepted : s.st = .idle → s.ext = none → s.sample.reqValid = true →
      Acts s (((s.setReqQ (.ofCode s.sample.reqOp)).goto .measCmd).record (.accepted (.ofCode s.sample.reqOp)))
  | measSent : s.st = .measCmd → s.sample.cmdDone = true →
      Acts s (((s.busWrite 0x2400).setDly Config.measSettleTicks).goto .measWait)
  | measTick : s.st = .measWait → s.dly ≠ 0 → Acts s (s.setDly (s.dly - 1))
  | measSettled : s.st = .measWait → s.dly = 0 → Acts s ((s.setRxi 0).goto .frameRd)
  | byteStored (f : Frame) : s.st = .frameRd → s.sample.rxValid = true →
      s.frame.write s.rxi.toNat s.sample.rxData = some f → s.rxi ≠ 5 → Acts s ((s.setFrame f).setRxi (s.rxi + 1))
  | frameStored (f : Frame) : s.st = .frameRd → s.sample.rxValid = true →
      s.frame.write 5 s.sample.rxData = some f → s.rxi = 5 →
      Acts s (((s.setFrame f).goto .chkT).record (.busRead devAddr f.bytes))
  | tempPassed : s.st = .chkT → s.frame.tempFieldValid = true → Acts s (s.goto .chkH)
  | tempFailed : s.st = .chkT → s.frame.tempFieldValid = false → Acts s (s.goto .esc)
  | humPassed : s.st = .chkH → s.frame.humFieldValid = true → Acts s (s.goto .conv)
  | humFailed : s.st = .chkH → s.frame.humFieldValid = false → Acts s (s.goto .esc)
  | converted : s.st = .conv → Acts s ((s.setReading (convT s.frame.tword) (convH s.frame.hword)).goto .resp)
  | responded : s.st = .resp → Acts s ((s.goto .idle).record (.responded s.reqQ s.cachedValue))
  | escalated : s.st = .esc → Acts s (raiseFault (faultCodeOf s.reqQ) s)

/-- Inversion of an action: it is one of those listed. -/
theorem acts_of_act {s u : State} (hu : s.act = .next u) : Acts s u := by
  cases hst : s.st with
  | rstCmd =>
    rw [act_rstCmd hst, execSoftReset] at hu
    cases hd : s.sample.cmdDone with
    | false => rw [writeCommand_wait hd] at hu; cases hu; exact .commandPending (by simp [hst]) hd
    | true =>
      rw [writeCommand_done hd, followFrom_here (by simp [hst])] at hu; cases hu; exact .resetSent hst hd
  | rstWait =>
    rw [act_rstWait hst, ruleRstWait] at hu
    split at hu
    · cases hu; exact .resetSettled hst ‹_›
    · cases hu; exact .resetTick hst ‹_›
  | statCmd =>
    rw [act_statCmd hst, execReadStatus] at hu
    cases hd : s.sample.cmdDone with
    | false => rw [writeCommand_wait hd] at hu; cases hu; exact .commandPending (by simp [hst]) hd
    | true =>
      rw [writeCommand_done hd, followFrom_here (by simp [hst])] at hu; cases hu; exact .statusSent hst hd
  | statRd =>
    rw [act_statRd hst, ruleStatRd] at hu
    cases hv : s.sample.rxValid with
    | false => simp only [hv, Bool.false_eq_true, if_false] at hu; cases hu; exact .readPending (by simp [hst]) hv
    | true =>
      simp only [hv, if_true] at hu
      split at hu
      · cases hu; exact .statusHigh hst hv ‹_›
      · cases hu; exact .statusLow hst hv ‹_›
  | idle =>
    cases he : s.ext with
    | some c =>
      rw [act_idle_ext hst he, exec_from_slot c hst] at hu
      cases hd : s.sample.cmdDone with
      | false => simp only [hd, Bool.false_eq_true, if_false] at hu; cases hu; exact .slotPending c hst he hd
      | true => simp only [hd, if_true] at hu; cases hu; exact .slotSent c hst he hd
    | none =>
      cases hv : s.sample.reqValid with
      | false => rw [act_idle_quiet hst he hv] at hu; cases hu; exact .noRequest hst he hv
      | true =>
        rw [act_idle_request hst he hv, acceptRequest_idle hst] at hu; cases hu; exact .accepted hst he hv
  | measCmd =>
    rw [act_measCmd hst, execMeasHighPoll] at hu
    cases hd : s.sample.cmdDone with
    | false => rw [writeCommand_wait hd] at hu; cases hu; exact .commandPending (by simp [hst]) hd
    | true =>
      rw [writeCommand_done hd, followFrom_here (by simp [hst])] at hu; cases hu; exact .measSent hst hd
  | measWait =>
    rw [act_measWait hst, ruleMeasWait] at hu
    split at hu
    · cases hu; exact .measSettled hst ‹_›
    · cases hu; exact .measTick hst ‹_›
  | frameRd =>
    rw [act_frameRd hst, ruleFrameRd] at hu
    cases hv : s.sample.rxValid with
    | false => simp only [hv, Bool.false_eq_true, if_false] at hu; cases hu; exact .readPending (by simp [hst]) hv
    | true =>
      simp only [hv, if_true] at hu
      split at hu
      · cases hu
      next f hw =>
        split at hu
        next h5 => cases hu; rw [h5] at hw; exact .frameStored f hst hv hw h5
        next h5 => cases hu; exact .byteStored f hst hv hw h5
  | chkT =>
    rw [act_chkT hst, ruleChkT] at hu
    cases hu
    split
    · exact .tempPassed hst ‹_›
    · exact .tempFailed hst (Bool.eq_false_iff.mpr ‹¬ _›)
  | chkH =>
    rw [act_chkH hst, ruleChkH] at hu
    cases hu
    split
    · exact .humPassed hst ‹_›
    · exact .humFailed hst (Bool.eq_false_iff.mpr ‹¬ _›)
  | conv => rw [act_conv hst, ruleConv] at hu; cases hu; exact .converted hst
  | resp => rw [act_resp hst, ruleResp] at hu; cases hu; exact .responded hst
  | esc => rw [act_esc hst, ruleEsc] at hu; cases hu; exact .escalated hst
  | fault => rw [act_fault hst] at hu; cases hu; exact .afterFault hst

/-- Inversion of a step that goes on: it is a reset, or one of the actions and the clock's tick. -/
theorem step_cases {s t : State} (h : step s = .next t) :
    (s.sample.rst = true ∧ t = resetStep s) ∨ (s.sample.rst = false ∧ ∃ u, Acts s u ∧ t = u.tick) := by
  cases hr : s.sample.rst with
  | true =>
    rw [step_of_rst hr] at h
    cases h
    exact .inl ⟨rfl, rfl⟩
  | false =>
    rw [step_of_act hr] at h
    obtain ⟨u, hu, rfl⟩ := andThen_next h
    exact .inr ⟨rfl, u, acts_of_act hu, rfl⟩

end Sys2Proof.Machine
end

