-- ==== Sys2Proof/Laws/PerInstr.lean ====
section
/-! SUPPORT. What holds of each instruction as syntax: its encoding is well formed, and has the length of its format. -/

namespace Sys2Proof.Laws.Encoding

/-- The bytes of an instruction pass the checks of WellFormed.lean and have the length of its format (R49, R54, R61). -/
def Statement (i : Instr) : Prop :=
  wellFormedBytes (encode i) = true ∧ wellFormedLength i.format (encode i) = true

theorem softReset : Statement .softReset := by unfold Statement; decide
theorem readStatus : Statement .readStatus := by unfold Statement; decide
theorem measHighPoll : Statement .measHighPoll := by unfold Statement; decide
theorem clearStatus : Statement .clearStatus := by unfold Statement; decide
theorem measHighStretch : Statement .measHighStretch := by unfold Statement; decide
theorem measMedPoll : Statement .measMedPoll := by unfold Statement; decide
theorem measMedStretch : Statement .measMedStretch := by unfold Statement; decide
theorem measLowPoll : Statement .measLowPoll := by unfold Statement; decide
theorem measLowStretch : Statement .measLowStretch := by unfold Statement; decide
theorem heaterEnable : Statement .heaterEnable := by unfold Statement; decide
theorem heaterDisable : Statement .heaterDisable := by unfold Statement; decide
theorem rdt : Statement .rdt := by unfold Statement; decide
theorem rdh : Statement .rdh := by unfold Statement; decide

end Sys2Proof.Laws.Encoding
end

