-- ==== Sys2Proof/Laws/Run.lean ====
section
/-! SUPPORT. Runs: every step uses one sample, and a run of a + b steps is one of a and then one of b. -/

namespace Sys2Proof.Machine

theorem sampleAt_zero (s : State) : s.sampleAt 0 = s.sample := by
  cases h : s.inputs <;> simp [State.sampleAt, State.sample, h]

/-- Every action leaves the samples alone. -/
theorem acts_inputs {s u : State} (h : Acts s u) : u.inputs = s.inputs ∧ u.cycle = s.cycle := by
  cases h <;> simp [raiseFault]

/-- Every step that goes on uses one sample. -/
theorem step_inputs {s t : State} (h : step s = .next t) : t.inputs = s.inputs.tail ∧ t.cycle = s.cycle + 1 := by
  rcases step_cases h with ⟨-, rfl⟩ | ⟨-, u, hu, rfl⟩
  · exact ⟨rfl, rfl⟩
  · simp [acts_inputs hu]

theorem sampleAt_step {s t : State} (h : step s = .next t) (j : Nat) : t.sampleAt j = s.sampleAt (j + 1) := by
  obtain ⟨hi, hc⟩ := step_inputs h
  simp only [State.sampleAt, hi, hc, List.getElem?_tail]
  rw [show s.cycle + 1 + j = s.cycle + (j + 1) by omega]

@[simp] theorem run_zero (s : State) : run 0 s = .next s := rfl

theorem run_succ {s t : State} (h : step s = .next t) (k : Nat) : run (k + 1) s = run k t := by
  simp [run, h]

theorem run_one {s t : State} (h : step s = .next t) : run 1 s = .next t := by rw [run_succ h, run_zero]

/-- A run that has come to t goes on from t. -/
theorem run_add {s t : State} {a : Nat} (h : run a s = .next t) (b : Nat) : run (a + b) s = run b t := by
  induction a generalizing s with
  | zero => simp only [run_zero, Host.Outcome.next.injEq] at h; rw [h, Nat.zero_add]
  | succ a ih =>
    cases hs : step s with
    | next u => rw [show a + 1 + b = (a + b) + 1 by omega, run_succ hs]; exact ih (by rwa [run_succ hs] at h)
    | fault e => simp [run, hs] at h
    | refused e => simp [run, hs] at h

/-- After a steps the samples are those from number a on. -/
theorem sampleAt_run {s t : State} {a : Nat} (h : run a s = .next t) (j : Nat) : t.sampleAt j = s.sampleAt (a + j) := by
  induction a generalizing s with
  | zero => simp only [run_zero, Host.Outcome.next.injEq] at h; rw [h, Nat.zero_add]
  | succ a ih =>
    cases hs : step s with
    | next u =>
      rw [ih (by rwa [run_succ hs] at h), sampleAt_step hs, show a + j + 1 = a + 1 + j by omega]
    | fault e => simp [run, hs] at h
    | refused e => simp [run, hs] at h

theorem noReset_mono {s : State} {a b : Nat} (h : NoReset s b) (hab : a ≤ b) : NoReset s a :=
  fun j hj => h j (by omega)

theorem noReset_run {s t : State} {a b : Nat} (h : NoReset s (a + b)) (hr : run a s = .next t) : NoReset t b :=
  fun j hj => by rw [sampleAt_run hr]; exact h _ (by omega)

theorem noReset_first {s : State} {k : Nat} (h : NoReset s (k + 1)) : s.sample.rst = false := by
  rw [← sampleAt_zero]; exact h 0 (by omega)

end Sys2Proof.Machine
end

