-- ==== Sys2Proof/Tests/Slice0.lean ====
section
/-! SUPPORT. Tests. Every expected value is the spec's: the codes of R50 and R55, the vectors of 95_test_vectors.md (a
test names its section), or the rule a test names. The second part shows, for each statement of
Certificates/Slice0/Obligations.lean that has hypotheses, a state and operands that meet them. -/

namespace Sys2Proof.Tests

open Sys2Proof.Machine

/-! ## Well-formedness: each check refuses an ill-formed term (R54, R60, R61) -/

theorem test_length_refuses_empty : wellFormedBytes [] = false := by decide
theorem test_length_refuses_three_bytes : wellFormedBytes [0x24, 0x00, 0x00] = false := by decide
theorem test_length_refuses_request_as_command : wellFormedLength .cmd16 [0x00] = false := by decide
theorem test_length_refuses_command_as_request : wellFormedLength .req1 [0x24, 0x00] = false := by decide
theorem test_request_refuses_second_bit : wellFormedBytes [0x02] = false := by decide
theorem test_command_refuses_foreign_code : wellFormedBytes [0x24, 0x01] = false := by decide
theorem test_command_refuses_swapped_bytes : wellFormedBytes [0x00, 0x24] = false := by decide

/-! ## Decoding: a word of each instruction, written out from R50 and R55 -/

theorem test_decode_softReset : decode [0b00110000, 0b10100010] = .ok .softReset := by decide
theorem test_decode_readStatus : decode [0b11110011, 0b00101101] = .ok .readStatus := by decide
theorem test_decode_measHighPoll : decode [0b00100100, 0b00000000] = .ok .measHighPoll := by decide
theorem test_decode_clearStatus : decode [0b00110000, 0b01000001] = .ok .clearStatus := by decide
theorem test_decode_measHighStretch : decode [0b00101100, 0b00000110] = .ok .measHighStretch := by decide
theorem test_decode_measMedPoll : decode [0b00100100, 0b00001011] = .ok .measMedPoll := by decide
theorem test_decode_measMedStretch : decode [0b00101100, 0b00001101] = .ok .measMedStretch := by decide
theorem test_decode_measLowPoll : decode [0b00100100, 0b00010110] = .ok .measLowPoll := by decide
theorem test_decode_measLowStretch : decode [0b00101100, 0b00010000] = .ok .measLowStretch := by decide
theorem test_decode_heaterEnable : decode [0b00110000, 0b01101101] = .ok .heaterEnable := by decide
theorem test_decode_heaterDisable : decode [0b00110000, 0b01100110] = .ok .heaterDisable := by decide
theorem test_decode_rdt : decode [0b00000000] = .ok .rdt := by decide
theorem test_decode_rdh : decode [0b00000001] = .ok .rdh := by decide

theorem test_decode_rejects_foreign_code : decode [0x24, 0x01] = .error (.notACommand 0x2401) := by decide
theorem test_decode_rejects_swapped_bytes : decode [0xA2, 0x30] = .error (.notACommand 0xA230) := by decide
theorem test_decode_rejects_request_bits : decode [0x80] = .error (.notARequest 0x80) := by decide
theorem test_decode_rejects_half_a_command : decode [0x24] = .error (.notARequest 0x24) := by decide
theorem test_decode_rejects_empty : decode [] = .error (.badLength 0) := by decide

/-- The opcode table gives a command as one 16-bit number and a request as one bit. -/
theorem test_table_words :
    decodeTableWord 16 0x30A2 = some .softReset ∧ decodeTableWord 16 0xF32D = some .readStatus ∧
      decodeTableWord 8 0 = some .rdt ∧ decodeTableWord 8 1 = some .rdh ∧
      decodeTableWord 16 0x2401 = none ∧ decodeTableWord 8 2 = none ∧ decodeTableWord 24 0x2400 = none := by decide

/-! ## Single steps -/

/-- `cmd_done = 1`. -/
def done : Inputs := { quietSample with cmdDone := true }

/-- A received byte. -/
def rx (b : Byte) : Inputs := { quietSample with rxValid := true, rxData := b }

/-- A request. -/
def req (op : BitVec 1) : Inputs := { quietSample with reqValid := true, reqOp := op }

/-- Every input asserted but `rst`. -/
def busy : Inputs := ⟨false, true, 1, true, true, 0x55⟩

/-- The state after reset, but in st and with samples placed. -/
def inState (st : SeqState) (inputs : List Inputs) : State := { State.reset with st := st, inputs := inputs }

/-- What f shows of the state after one step. -/
def after {α : Type} (s : State) (f : State → α) : Option α := (nextOf (step s)).map f

/-- The frame of 95_test_vectors.md E6. -/
def goodFrame : Frame := ⟨0x61, 0x03, 0x73, 0x6E, 0x8B, 0x29⟩

/-! The thirteen instructions, run by the step from a placed word (R63; 95_test_vectors.md section 4; R117). -/

theorem test_run_softReset : after (State.reset.withFetchWord 16 0x30A2) (fun t => (t.st, t.log)) =
    some (.rstWait, [.busWrite 0x44 0x30 0xA2]) := by decide
theorem test_run_readStatus : after (State.reset.withFetchWord 16 0xF32D) (fun t => (t.st, t.log)) =
    some (.statRd, [.busWrite 0x44 0xF3 0x2D]) := by decide
theorem test_run_measHighPoll : after (State.reset.withFetchWord 16 0x2400) (fun t => (t.st, t.log)) =
    some (.measWait, [.busWrite 0x44 0x24 0x00]) := by decide
theorem test_run_clearStatus : after (State.reset.withFetchWord 16 0x3041) (fun t => (t.st, t.log)) =
    some (.idle, [.busWrite 0x44 0x30 0x41]) := by decide
theorem test_run_measHighStretch : after (State.reset.withFetchWord 16 0x2C06) (fun t => (t.st, t.log)) =
    some (.idle, [.busWrite 0x44 0x2C 0x06]) := by decide
theorem test_run_measMedPoll : after (State.reset.withFetchWord 16 0x240B) (fun t => (t.st, t.log)) =
    some (.idle, [.busWrite 0x44 0x24 0x0B]) := by decide
theorem test_run_measMedStretch : after (State.reset.withFetchWord 16 0x2C0D) (fun t => (t.st, t.log)) =
    some (.idle, [.busWrite 0x44 0x2C 0x0D]) := by decide
theorem test_run_measLowPoll : after (State.reset.withFetchWord 16 0x2416) (fun t => (t.st, t.log)) =
    some (.idle, [.busWrite 0x44 0x24 0x16]) := by decide
theorem test_run_measLowStretch : after (State.reset.withFetchWord 16 0x2C10) (fun t => (t.st, t.log)) =
    some (.idle, [.busWrite 0x44 0x2C 0x10]) := by decide
theorem test_run_heaterEnable : after (State.reset.withFetchWord 16 0x306D) (fun t => (t.st, t.log)) =
    some (.idle, [.busWrite 0x44 0x30 0x6D]) := by decide
theorem test_run_heaterDisable : after (State.reset.withFetchWord 16 0x3066) (fun t => (t.st, t.log)) =
    some (.idle, [.busWrite 0x44 0x30 0x66]) := by decide
theorem test_run_rdt : after (State.reset.withFetchWord 8 0) (fun t => (t.st, t.reqQ, t.log)) =
    some (.measCmd, .rdt, [.accepted .rdt]) := by decide
theorem test_run_rdh : after (State.reset.withFetchWord 8 1) (fun t => (t.st, t.reqQ, t.log)) =
    some (.measCmd, .rdh, [.accepted .rdh]) := by decide

/-- A value outside the closed set of R50 cannot be placed (R60(a)). -/
theorem test_place_foreign_code : State.reset.withFetchWord 16 0x2401 = State.reset := by decide

/-! The single-step vectors of 95_test_vectors.md section 5.1. -/

theorem test_rstCmd_ignores_unawaited :
    after (inState .rstCmd [{ busy with cmdDone := false }]) (fun t => (t.st, t.dly, t.log)) = some (.rstCmd, 0, []) := by
  decide
theorem test_rstWait_counts : after { inState .rstWait [busy] with dly := 2 } (fun t => (t.st, t.dly)) =
    some (.rstWait, 1) := by decide
theorem test_rstWait_ends : after (inState .rstWait [busy]) (fun t => (t.st, t.dly)) = some (.statCmd, 0) := by decide
theorem test_statRd_first_byte : after { inState .statRd [rx 0x80] with status := 0x1234 }
    (fun t => (t.st, t.rxi, t.status)) = some (.statRd, 1, 0x8034) := by decide
theorem test_statRd_second_byte : after { inState .statRd [rx 0x10] with status := 0x8034, rxi := 1 }
    (fun t => (t.st, t.rxi, t.status)) = some (.idle, 1, 0x8010) := by decide
theorem test_measCmd_keeps_request : after (inState .measCmd [{ busy with cmdDone := false }])
    (fun t => (t.st, t.reqQ)) = some (.measCmd, .rdt) := by decide
theorem test_measWait_ends : after { inState .measWait [busy] with rxi := 1 } (fun t => (t.st, t.rxi)) =
    some (.frameRd, 0) := by decide
theorem test_frameRd_middle_byte : after { inState .frameRd [rx 0x8B] with rxi := 4 }
    (fun t => (t.st, t.rxi, t.frame)) = some (.frameRd, 5, ⟨0, 0, 0, 0, 0x8B, 0⟩) := by decide
theorem test_frameRd_last_byte : after { inState .frameRd [rx 0x29] with rxi := 5 }
    (fun t => (t.st, t.rxi, t.frame)) = some (.chkT, 5, ⟨0, 0, 0, 0, 0, 0x29⟩) := by decide
theorem test_frameRd_gap : after { inState .frameRd [{ busy with rxValid := false }] with rxi := 3 }
    (fun t => (t.st, t.rxi, t.frame)) = some (.frameRd, 3, ⟨0, 0, 0, 0, 0, 0⟩) := by decide
theorem test_chkT_passes : after { inState .chkT [busy] with frame := goodFrame } (·.st) = some .chkH := by decide +kernel
theorem test_chkT_fails : after { inState .chkT [busy] with frame := { goodFrame with tempCrc := 0x72 } } (·.st) =
    some .esc := by decide +kernel
theorem test_chkH_passes : after { inState .chkH [busy] with frame := goodFrame } (·.st) = some .conv := by decide +kernel
theorem test_chkH_fails : after { inState .chkH [busy] with frame := { goodFrame with humCrc := 0x00 } } (·.st) =
    some .esc := by decide +kernel
theorem test_conv_stores_pair : after { inState .conv [busy] with frame := goodFrame }
    (fun t => (t.st, t.tempOut, t.humOut)) = some (.resp, 21318, 43182) := by decide
theorem test_resp_shows_temperature :
    let s := { inState .resp [busy] with tempOut := 21318, humOut := 43182 }
    after s (·.st) = some .idle ∧ (outputs s).rspValid = true ∧ (outputs s).rspOp = some 0 ∧
      (outputs s).rspData = some 21318 := by decide
theorem test_resp_shows_humidity :
    let s := { inState .resp [busy] with tempOut := 21318, humOut := 43182, reqQ := .rdh }
    after s (·.st) = some .idle ∧ (outputs s).rspOp = some 1 ∧ (outputs s).rspData = some 43182 := by decide
theorem test_esc_temperature : after (inState .esc [busy]) (fun t => (t.st, t.fault, t.faultCode.code)) =
    some (.fault, true, 1) := by decide
theorem test_esc_humidity : after { inState .esc [busy] with reqQ := .rdh } (fun t => (t.st, t.fault, t.faultCode.code)) =
    some (.fault, true, 2) := by decide
theorem test_fault_stays : after { inState .fault [busy] with fault := true, faultCode := .humCrcFail }
    (fun t => (t.st, t.fault, t.faultCode, t.log)) = some (.fault, true, .humCrcFail, []) := by decide
theorem test_rst_from_fault :
    after { inState .fault [{ busy with rst := true }] with fault := true, faultCode := .humCrcFail, rxi := 5 }
      (fun t => (t.st, t.dly, t.rxi, t.fault, t.faultCode)) = some (.rstCmd, 0, 0, false, .noFault) := by decide

/-- The codes of R59 at both ends of the sequence. -/
theorem test_state_codes : SeqState.rstCmd.code = 0 ∧ SeqState.frameRd.code = 7 ∧ SeqState.fault.code = 13 := by decide

/-! The checksum (95_test_vectors.md section 2) and the conversion (section 3). -/

theorem test_crc_rounds :
    crcRound 0x41 = 0x82 ∧ crcRound 0x82 = 0x35 ∧ crcRound 0x80 = 0x31 ∧ crcRound 0xFF = 0xCF ∧ crcRound 0x7F = 0xFE := by
  decide
theorem test_crc_vectors :
    crc8 [0xBE, 0xEF] = 0x92 ∧ crc8 [0xEF, 0xBE] = 0xCE ∧ crc8 [0x61, 0x03] = 0x73 ∧ crc8 [0x00, 0x00] = 0x81 ∧
      crc8 [0xFF, 0xFF] = 0xAC ∧ crc8 [0x01] = 0x9D := by decide +kernel
theorem test_crc_check_value : crc8 [0x31, 0x32, 0x33, 0x34, 0x35, 0x36, 0x37, 0x38, 0x39] = 0xF7 := by decide +kernel
theorem test_field_validation :
    fieldValid 0x61 0x03 0x73 = true ∧ fieldValid 0xE1 0x03 0x73 = false ∧ fieldValid 0x61 0x02 0x42 = true ∧
      goodFrame.valid = true ∧ ({ goodFrame with humCrc := 0 } : Frame).valid = false := by decide +kernel
theorem test_convT_vectors :
    convT 0x0000 = 0xFFFF5038 ∧ convT 0x0001 = BitVec.ofInt 32 (-44997) ∧ convT 0x41D3 = 0xFFFFFFFE ∧
      convT 0x41D4 = 0 ∧ convT 0x6103 = 21318 ∧ convT 0xFFFF = 130000 := by decide
theorem test_convH_vectors :
    convH 0x0000 = 0 ∧ convH 0x0001 = 2 ∧ convH 0x7FFF = 49999 ∧ convH 0x8000 = 50001 ∧ convH 0x6E8B = 43182 ∧
      convH 0xFFFF = 100000 := by decide

/-! ## Witnesses: what the hypotheses of each statement ask for can be met -/

theorem witness_EncodingIsUnique : decode [0x24, 0x00] = .ok .measHighPoll ∧ decode [0x01] = .ok .rdh := by decide
theorem witness_OnlyListedWordsDecode :
    (([] : List Byte).length ≠ 1 ∧ ([] : List Byte).length ≠ 2) ∧
      ([0, 0, 0] : List Byte).length ≠ 1 ∧ ([0, 0, 0] : List Byte).length ≠ 2 := by decide
theorem witness_RstResetsInAnyState : (inState .fault [{ quietSample with rst := true }]).sample.rst = true := by decide
theorem witness_StepRunsDecodedInstruction :
    let s := inState .idle [req 1]
    s.sample.rst = false ∧ s.fetch = some [0x01] ∧ decode [0x01] = .ok .rdh := by decide
theorem witness_FetchedBytes :
    ((inState .rstCmd []).st = .rstCmd ∧ (inState .statCmd []).st = .statCmd ∧ (inState .measCmd []).st = .measCmd) ∧
      (let s := { inState .idle [] with ext := some .clearStatus }
       s.st = .idle ∧ s.ext = some .clearStatus) ∧
      (let s := inState .idle [req 0]
       s.st = .idle ∧ s.ext = none ∧ s.sample.reqValid = true ∧ s.sample.reqOp = 0) ∧
      (let s := inState .idle [req 1]
       s.st = .idle ∧ s.ext = none ∧ s.sample.reqValid = true ∧ s.sample.reqOp = 1) ∧
      (let s := inState .idle [quietSample]
       s.st = .idle ∧ s.ext = none ∧ s.sample.reqValid = false) ∧
      (inState .fault []).st ∉ [SeqState.rstCmd, .statCmd, .measCmd, .idle] := by decide
theorem witness_ForeignCodeRefused : (0x2401 : Half) ∉ commandCodes ∧ (0x0000 : Half) ∉ commandCodes := by decide
/-- With a command in the slot and without one. -/
theorem witness_OnlyListedCodesOnThePort :
    (outputs { inState .idle [] with ext := some .clearStatus }).cmdData = some 0x3041 ∧
      ((inState .measCmd []).ext = none ∧ (outputs (inState .measCmd [])).cmdData = some 0x2400) := by decide
theorem witness_CommandsWriteTwoBytesMsbFirst :
    Instr.softReset.commandCode = some 0x30A2 ∧ (inState .rstCmd [done]).sample.cmdDone = true ∧
      (inState .rstCmd [quietSample]).sample.cmdDone = false := by decide
/-- For the four statements on what a command does once written: from its own state and from elsewhere. -/
theorem witness_command_written :
    (let s := inState .rstCmd [done]
     s.sample.cmdDone = true ∧ s.st = .rstCmd ∧ s.st ≠ .statCmd ∧ s.st ≠ .measCmd) ∧
      (let s := inState .statCmd [done]
       s.sample.cmdDone = true ∧ s.st = .statCmd ∧ s.st ≠ .rstCmd) ∧
      (let s := inState .measCmd [done]
       s.sample.cmdDone = true ∧ s.st = .measCmd) := by decide
theorem witness_HostRequestsStartCycle : (inState .idle []).st = .idle ∧ (inState .resp []).st ≠ .idle := by decide
theorem witness_InstructionsKeepTheRest :
    nextOf (exec .softReset (inState .rstCmd [quietSample])) = some (inState .rstCmd [quietSample]) ∧
      (nextOf (exec .rdh (inState .idle []))).map (·.reqQ) = some .rdh ∧
      (nextOf (exec .readStatus { inState .statCmd [done] with rxi := 5 })).map (·.rxi) = some 0 ∧
      (nextOf (exec .heaterEnable (inState .idle [done]))).map (·.st) = some .idle := by decide

/-- For the statements on a command state: the write goes on, or has ended. -/
theorem witness_command_states :
    ∀ st ∈ [SeqState.rstCmd, .statCmd, .measCmd],
      ((inState st [quietSample]).sample.rst = false ∧ (inState st [quietSample]).st = st ∧
        (inState st [quietSample]).sample.cmdDone = false) ∧
      ((inState st [done]).sample.rst = false ∧ (inState st [done]).st = st ∧
        (inState st [done]).sample.cmdDone = true) := by decide
theorem witness_StepInStatRd :
    let s := { inState .statRd [rx 0x80] with rxi := 1 }
    ((inState .statRd [rx 0x80]).rxi = 0 ∧ (inState .statRd [rx 0x80]).sample.rxValid = true) ∧
      (s.sample.rst = false ∧ s.st = .statRd ∧ s.rxi = 1 ∧ s.sample.rxValid = true) ∧
      (inState .statRd [quietSample]).sample.rxValid = false ∧ (inState .idle [quietSample]).st ≠ .statRd := by decide
theorem witness_StepInIdle :
    ∀ i ∈ [req 0, req 1, quietSample],
      (inState .idle [i]).sample.rst = false ∧ (inState .idle [i]).st = .idle ∧ (inState .idle [i]).ext = none := by
  decide
/-- For `StepInFrameRd` and, at 6 and 7, `NoSeventhCell`. -/
theorem witness_StepInFrameRd :
    ∀ k ∈ [(0 : BitVec 3), 4, 5, 6, 7],
      let s := { inState .frameRd [rx 0x61] with rxi := k }
      s.sample.rst = false ∧ s.st = .frameRd ∧ s.sample.rxValid = true ∧
        (s.rxi.toNat < 5 ∨ s.rxi = 5 ∨ 5 < s.rxi.toNat) := by decide
theorem witness_StepInChkT :
    (let s := { inState .chkT [quietSample] with frame := goodFrame }
     s.sample.rst = false ∧ s.st = .chkT ∧ crc8 [s.frame.tempMsb, s.frame.tempLsb] = s.frame.tempCrc) ∧
      (let s := inState .chkT [quietSample]
       s.sample.rst = false ∧ s.st = .chkT ∧ crc8 [s.frame.tempMsb, s.frame.tempLsb] ≠ s.frame.tempCrc) := by decide +kernel
theorem witness_StepInChkH :
    (let s := { inState .chkH [quietSample] with frame := goodFrame }
     s.sample.rst = false ∧ s.st = .chkH ∧ crc8 [s.frame.humMsb, s.frame.humLsb] = s.frame.humCrc) ∧
      (let s := inState .chkH [quietSample]
       s.sample.rst = false ∧ s.st = .chkH ∧ crc8 [s.frame.humMsb, s.frame.humLsb] ≠ s.frame.humCrc) := by decide +kernel
/-- For the statements on `S_CONV`, `S_RESP` and `S_ESC`, with both request kinds. -/
theorem witness_ends_of_a_request :
    ∀ st ∈ [SeqState.conv, .resp, .esc], ∀ q ∈ [ReqOp.rdt, .rdh],
      let s := { inState st [quietSample] with reqQ := q }
      s.sample.rst = false ∧ s.st = st ∧ s.reqQ = q := by decide
theorem witness_StuckBusFails :
    ∀ b ∈ [(0x00 : Byte), 0xFF],
      let s := { inState .chkT [quietSample] with frame := ⟨b, b, b, b, b, b⟩ }
      s.sample.rst = false ∧ s.st = .chkT ∧ s.frame = ⟨b, b, b, b, b, b⟩ := by decide
/-- For `EventsOfAStep`: a step in each of the fourteen states, the two read states at their last byte. -/
theorem witness_EventsOfAStep :
    ∀ st ∈ [SeqState.rstCmd, .rstWait, .statCmd, .statRd, .idle, .measCmd, .measWait, .frameRd, .chkT, .chkH, .conv, .resp,
        .esc, .fault],
      let s := { inState st [busy] with rxi := if st = .statRd then 1 else 5 }
      s.sample.rst = false ∧ s.ext = none ∧ (st = .statRd → s.rxi.toNat ≤ 1) ∧ (nextOf (step s)).isSome = true := by
  decide +kernel
theorem witness_OutputPorts : (inState .measWait []).ext = none := by decide

/-! ### Schedules of many samples -/

theorem noReset_of_placed {s : State} {k : Nat} (hk : k ≤ s.inputs.length) (h : ∀ i ∈ s.inputs, i.rst = false) :
    NoReset s k := by
  intro j hj
  have hj' : j < s.inputs.length := by omega
  simp only [State.sampleAt, List.getElem?_eq_getElem hj', Option.getD_some]
  exact h _ (List.getElem_mem hj')

/-- For the statements on the two waits, one step and as a whole, at the shortest and at a longer wait. -/
theorem witness_waits :
    ∀ st ∈ [SeqState.rstWait, .measWait], ∀ n ∈ [0, 3],
      let s := { inState st (List.replicate 4 busy) with dly := n }
      s.st = st ∧ s.sample.rst = false ∧ ∀ j, j < s.dly + 1 → (s.sampleAt j).rst = false := by decide
theorem witness_FaultIsTerminal :
    (let s := { inState .fault (List.replicate 5 busy) with fault := true, faultCode := .tempCrcFail, rxi := 5 }
     s.st = .fault ∧ NoReset s 5 ∧ ControlInv s) ∧
      (let s := inState .fault [{ busy with rst := true }]
       s.st = .fault ∧ s.sample.rst = true) :=
  ⟨⟨rfl, noReset_of_placed (by decide) (by decide), by decide, by decide, by decide, Nat.two_pow_pos _, fun _ _ => rfl,
    by decide, by decide, rfl⟩, by decide⟩
theorem witness_StepInEsc :
    let s := { inState .esc (List.replicate 5 busy) with rxi := 5 }
    s.st = .esc ∧ NoReset s (4 + 1) ∧ ControlInv s :=
  ⟨rfl, noReset_of_placed (by decide) (by decide), by decide, by decide, by decide, Nat.two_pow_pos _, fun _ _ => rfl,
    by decide, by decide, rfl⟩
theorem witness_WaitsWithoutBound :
    (let s := inState .measCmd (List.replicate 5 (req 1))
     NoReset s 5 ∧ s.st ∈ [SeqState.rstCmd, .statCmd, .measCmd] ∧ ∀ j, j < 5 → (s.sampleAt j).cmdDone = false) ∧
      (let s := inState .frameRd (List.replicate 5 done)
       NoReset s 5 ∧ s.st ∈ [SeqState.statRd, .frameRd] ∧ ∀ j, j < 5 → (s.sampleAt j).rxValid = false) :=
  ⟨⟨noReset_of_placed (by decide) (by decide), by decide, by decide⟩,
    noReset_of_placed (by decide) (by decide), by decide, by decide⟩

/-- A transport that answers at once, then n quiet samples. -/
def doneThenQuiet (n : Nat) : List Inputs := done :: List.replicate n quietSample

theorem doneThenQuiet_no_rst (n : Nat) : ∀ i ∈ doneThenQuiet n, i.rst = false := by
  intro i hi
  simp only [doneThenQuiet, List.mem_cons, List.mem_replicate] at hi
  rcases hi with rfl | ⟨-, rfl⟩ <;> rfl

theorem witness_SettleWaitsAreExact :
    (let s := inState .measCmd (doneThenQuiet (Config.measSettleTicks + 1))
     s.st = .measCmd ∧ s.sample.cmdDone = true ∧ NoReset s (Config.measSettleTicks + 2)) ∧
      (let s := inState .rstCmd (doneThenQuiet (Config.resetSettleTicks + 1))
       s.st = .rstCmd ∧ s.sample.cmdDone = true ∧ NoReset s (Config.resetSettleTicks + 2)) :=
  ⟨⟨rfl, rfl, noReset_of_placed (by simp [inState, doneThenQuiet]) (doneThenQuiet_no_rst _)⟩,
    rfl, rfl, noReset_of_placed (by simp [inState, doneThenQuiet]) (doneThenQuiet_no_rst _)⟩

/-- The bytes with gaps of 95_test_vectors.md section 5.3. -/
def gappyFrame : List Inputs :=
  [rx 0x61, quietSample, quietSample, rx 0x03, rx 0x73, quietSample, rx 0x6E, rx 0x8B, quietSample, rx 0x29]

theorem witness_ReceiverStoresBytesInOrder :
    (let s := inState .frameRd gappyFrame
     s.st = .frameRd ∧ s.rxi = 0 ∧ NoReset s 10 ∧ ReadTakes s 0 10 goodFrame.bytes) ∧
      (let s := inState .statRd [rx 0x80, rx 0x10]
       s.st = .statRd ∧ s.rxi = 0 ∧ NoReset s 2 ∧ ReadTakes s 0 2 [0x80, 0x10]) :=
  ⟨⟨rfl, rfl, noReset_of_placed (by decide) (by decide), by decide, by decide, by decide⟩,
    rfl, rfl, noReset_of_placed (by decide) (by decide), by decide, by decide, by decide⟩

theorem witness_CycleResultOfSixBytes :
    ∀ f ∈ [goodFrame, { goodFrame with humCrc := 0x00 }, { goodFrame with tempCrc := 0x72 }],
      let s := { inState .chkT (List.replicate 3 quietSample) with frame := f }
      s.st = .chkT ∧ (∀ j, j < 3 → (s.sampleAt j).rst = false) ∧
        (crc8 [s.frame.tempMsb, s.frame.tempLsb] = s.frame.tempCrc ∨
          crc8 [s.frame.tempMsb, s.frame.tempLsb] ≠ s.frame.tempCrc) := by decide +kernel

/-- A run of INIT: the first command at once, the settle wait, the second command at once, two bytes. -/
def initRun : State :=
  inState .rstCmd (done :: (List.replicate (Config.resetSettleTicks + 1) quietSample ++ [done, rx 0x80, rx 0x10]))

/-- The sample j places after the quiet ones. -/
theorem sampleAt_after_quiet {s : State} {first : Inputs} {n : Nat} {rest : List Inputs}
    (h : s.inputs = first :: (List.replicate n quietSample ++ rest)) (j : Nat) {i : Inputs} (hj : rest[j]? = some i) :
    s.sampleAt (1 + n + j) = i := by
  have : s.inputs[1 + n + j]? = some i := by
    rw [h, show 1 + n + j = (n + j) + 1 by omega, List.getElem?_cons_succ, List.getElem?_append_right (by simp)]
    simpa using hj
  simp [State.sampleAt, this]

theorem witness_InitReachesIdle :
    initRun.st = .rstCmd ∧ initRun.ext = none ∧ NoReset initRun (1 + (Config.resetSettleTicks + 1) + 1 + 2) ∧
      CommandTakes initRun 0 1 ∧ CommandTakes initRun (1 + (Config.resetSettleTicks + 1)) 1 ∧
      ReadTakes initRun (1 + (Config.resetSettleTicks + 1) + 1) 2 [0x80, 0x10] := by
  have at_ := @sampleAt_after_quiet initRun done (Config.resetSettleTicks + 1) [done, rx 0x80, rx 0x10] rfl
  refine ⟨rfl, rfl, noReset_of_placed (by simp [initRun, inState]; omega) ?_, ⟨le_refl _, by omega, rfl⟩,
    ⟨le_refl _, by omega, ?_⟩, by omega, ?_, ?_⟩
  · intro i hi
    simp only [initRun, inState, List.mem_cons, List.mem_append, List.mem_replicate, List.not_mem_nil, or_false] at hi
    rcases hi with rfl | ⟨-, rfl⟩ | rfl | rfl | rfl <;> rfl
  · exact congrArg Inputs.cmdDone (at_ 0 rfl)
  · simp only [bytesDelivered, List.range_succ, List.range_zero, List.nil_append, List.cons_append,
      List.filterMap_cons, List.filterMap_nil, Nat.add_zero]
    rw [show (1 + (Config.resetSettleTicks + 1) + 1 + 1) = 1 + (Config.resetSettleTicks + 1) + 2 by omega, at_ 1 rfl, at_ 2 rfl]
    rfl
  · exact congrArg Inputs.rxValid (at_ 2 rfl)

/-- A request served by a transport that answers at once, with a given frame. -/
def requestRun (op : BitVec 1) (f : Frame) : State :=
  inState .idle (req op :: done :: (List.replicate (Config.measSettleTicks + 1) quietSample ++
    (f.bytes.map rx ++ List.replicate 4 quietSample)))

theorem requestRun_meets_premises (op : BitVec 1) (f : Frame) :
    (requestRun op f).st = .idle ∧ (requestRun op f).ext = none ∧ (requestRun op f).sample.reqValid = true ∧
      NoReset (requestRun op f) (1 + 1 + (Config.measSettleTicks + 1) + 6 + 4) ∧
      CommandTakes (requestRun op f) 1 1 ∧
      ReadTakes (requestRun op f) (1 + 1 + (Config.measSettleTicks + 1)) 6 f.bytes := by
  have at_ (j : Nat) (i : Inputs) (hj : (f.bytes.map rx ++ List.replicate 4 quietSample)[j]? = some i) :
      (requestRun op f).sampleAt (1 + 1 + (Config.measSettleTicks + 1) + j) = i := by
    have : (requestRun op f).inputs[1 + 1 + (Config.measSettleTicks + 1) + j]? = some i := by
      rw [requestRun, inState, show 1 + 1 + (Config.measSettleTicks + 1) + j = (Config.measSettleTicks + 1 + j) + 1 + 1 by omega,
        List.getElem?_cons_succ, List.getElem?_cons_succ, List.getElem?_append_right (by simp)]
      simpa using hj
    simp [State.sampleAt, this]
  refine ⟨rfl, rfl, rfl, noReset_of_placed (by simp [requestRun, inState, Frame.bytes]; omega) ?_,
    ⟨le_refl _, by omega, rfl⟩, by omega, ?_, ?_⟩
  · intro i hi
    simp only [requestRun, inState, List.mem_cons, List.mem_append, List.mem_replicate, List.mem_map] at hi
    rcases hi with rfl | rfl | ⟨-, rfl⟩ | ⟨b, -, rfl⟩ | ⟨-, rfl⟩ <;> rfl
  · simp only [bytesDelivered, List.range_succ, List.range_zero, List.nil_append, List.cons_append,
      List.filterMap_cons, List.filterMap_nil]
    rw [at_ 0 (rx f.tempMsb) rfl, at_ 1 (rx f.tempLsb) rfl, at_ 2 (rx f.tempCrc) rfl, at_ 3 (rx f.humMsb) rfl,
      at_ 4 (rx f.humLsb) rfl, at_ 5 (rx f.humCrc) rfl]
    rfl
  · exact congrArg Inputs.rxValid (at_ 5 (rx f.humCrc) rfl)

theorem witness_RequestRunsWholeCycle :
    (requestRun 1 goodFrame).st = .idle ∧ (requestRun 1 goodFrame).ext = none ∧
      (requestRun 1 goodFrame).sample.reqValid = true ∧
      NoReset (requestRun 1 goodFrame) (1 + 1 + (Config.measSettleTicks + 1) + 6 + 4) ∧
      CommandTakes (requestRun 1 goodFrame) 1 1 ∧
      ReadTakes (requestRun 1 goodFrame) (1 + 1 + (Config.measSettleTicks + 1)) 6 [0x61, 0x03, 0x73, 0x6E, 0x8B, 0x29] :=
  requestRun_meets_premises 1 goodFrame

/-- The three outcomes that `RequestRunsWholeCycle` distinguishes all occur (`requestRun_meets_premises` holds of each). -/
theorem witness_request_outcomes :
    goodFrame.valid = true ∧
      (({ goodFrame with humCrc := 0 } : Frame).valid = false ∧ ({ goodFrame with humCrc := 0 } : Frame).tempFieldValid = true) ∧
      (({ goodFrame with tempCrc := 0 } : Frame).valid = false ∧
        ({ goodFrame with tempCrc := 0 } : Frame).tempFieldValid = false) := by decide +kernel

/-! ### Invariants -/

/-- For the statements under the control invariant: it holds in a state that is not the reset state, and steps go on there. -/
theorem witness_ControlInv :
    let s := { inState .fault [quietSample] with fault := true, faultCode := .humCrcFail, reqQ := .rdh, rxi := 5 }
    ControlInv s ∧ ∃ t, step s = .next t :=
  ⟨⟨by decide, by decide, by decide, Nat.two_pow_pos _, fun _ _ => rfl, by decide, by decide, rfl⟩, _, rfl⟩

/-- INIT has run, and a request has come to `S_CHK_H` with a good frame. -/
def midCycle (st : SeqState) : State :=
  { inState st [quietSample] with
    frame := goodFrame, rxi := 5, status := 0x8010,
    log := [.busWrite 0x44 0x30 0xA2, .busWrite 0x44 0xF3 0x2D, .busRead 0x44 [0x80, 0x10], .accepted .rdt,
      .busWrite 0x44 0x24 0x00, .busRead 0x44 [0x61, 0x03, 0x73, 0x6E, 0x8B, 0x29]] }

/-- For the statements under the history invariant, the step into `S_CONV` among them. -/
theorem witness_HistoryInv :
    HistoryInv (midCycle .chkH) ∧ after (midCycle .chkH) (·.st) = some .conv :=
  ⟨⟨rfl, by decide +kernel, by decide +kernel, by decide +kernel, by decide +kernel, by decide +kernel⟩, by decide +kernel⟩

/-- For `PairChangesOnlyAfterBothChecks`: a step that changes the pair, without reset. -/
theorem witness_PairChanges :
    (midCycle .conv).sample.rst = false ∧ (midCycle .conv).st = .conv ∧
      after (midCycle .conv) (fun t => decide (t.tempOut ≠ (midCycle .conv).tempOut)) = some true := by decide

theorem witness_BusyRequestsIgnored :
    (inState .measWait [req 1]).st ≠ .idle ∧ (inState .measWait [req 1]).inputs = req 1 :: [] := by decide
theorem witness_UnawaitedAnswersIgnored :
    (let s := inState .idle [done]
     s.inputs = done :: [] ∧ (outputs s).cmdValid = false ∧ (outputs s).rdValid = false) ∧
      (let s := inState .measCmd [done]
       (outputs s).cmdValid = true ∧ (true = done.cmdDone) ∧ (outputs s).rdValid = false) ∧
      (let s := inState .frameRd [rx 0x61]
       (outputs s).rdValid = true ∧ (true = (rx 0x61).rxValid) ∧ (0x61 = (rx 0x61).rxData) ∧
         (outputs s).cmdValid = false) := by decide

/-- Two states that differ, and agree in what can matter. -/
theorem witness_UnwrittenRegistersNeverMatter :
    let s := inState .idle [req 0]
    let t := { s with tempOut := 25000, reqQ := .rdh }
    s ≠ t ∧ SameLive s t ∧ ∃ s', step s = .next s' :=
  ⟨by decide, ⟨rfl, rfl, rfl, rfl, rfl, rfl, rfl, rfl, rfl, by decide, by decide, by decide, by decide, by decide, by decide⟩,
    _, rfl⟩

/-! ### The checksum and the conversion -/

theorem witness_ChecksumAlgorithm : 128 ≤ (0x80 : Byte).toNat ∧ (0x7F : Byte).toNat < 128 := by decide
theorem witness_ErrorsDetected :
    fieldValid 0x61 0x03 0x73 = true ∧ (weight 0x00 + weight 0x00 + weight 0x01) % 2 = 1 ∧
      ((0x80 : Byte) ≠ 0 ∧ 16 ≤ 16) ∧ ((0x01 : Byte) ≠ 0 ∧ 0 ≤ 16) := by decide +kernel
theorem witness_ConversionStrictlyIncreasing :
    (0x0000 : Half).toNat < (0xFFFF : Half).toNat ∧ (0xFFFE : Half).toNat + 1 = (0xFFFF : Half).toNat := by decide

end Sys2Proof.Tests
end

/-! # Proofs: the state

The reset state, the control invariant, the cached pair, and the registers that no run depends on. -/

namespace Sys2Proof.Machine

/-! ## The state after reset -/

/-- Settles O5: each register of R29's table that has a reset value holds it. -/
theorem resetStartsInit : Obligations.ResetStartsInit := by
  unfold Obligations.ResetStartsInit
  exact ⟨rfl, rfl, rfl, rfl, rfl⟩

/-- A state at the start of INIT with the registers at R29's values meets the control invariant, whatever the other
registers hold. -/
theorem controlInv_of_start {s : State} (hst : s.st = .rstCmd) (hdly : s.dly = 0) (hrxi : s.rxi = 0)
    (hfault : s.fault = false) (hcode : s.faultCode = .noFault) (hext : s.ext = none) : ControlInv s where
  rxi_in_range := by simp [hrxi]
  rxi_in_status_read := by simp [hst]
  rxi_after_frame := by simp [hst]
  dly_fits := by simp [hdly]
  dly_at_rest := fun _ _ => hdly
  fault_iff := by simp [hfault, hst]
  fault_code := by simp [hcode, hst]
  slot_empty := hext

/-- Settles O40: the reset state is a start of INIT. -/
theorem controlInvariantAtReset : Obligations.ControlInvariantAtReset := by
  unfold Obligations.ControlInvariantAtReset
  exact controlInv_of_start rfl rfl rfl rfl rfl rfl

/-- Settles O43: the empty log replays to the phase of `S_RST_CMD`, and the claims about later states are empty there. -/
theorem historyInvariantAtReset : Obligations.HistoryInvariantAtReset := by
  unfold Obligations.HistoryInvariantAtReset
  have hst : State.reset.st = .rstCmd := rfl
  exact
    { slot_empty := rfl
      log_is_run := rfl
      temp_checked := by simp [hst]
      both_checked := by simp [hst]
      pair_stored := by simp [hst]
      check_failed := by simp [hst] }

/-! ## The control invariant, one field at a time -/

section
variable {s u : State}

/-- The conversion's step, whatever the two words: they are variables here, which keeps the kernel from computing them. -/
theorem ControlInv.converted (h : ControlInv s) (hst : s.st = .conv) (temp hum : Word) :
    ControlInv ((s.setReading temp hum).goto .resp) where
  rxi_in_range := h.rxi_in_range
  rxi_in_status_read := by simp
  rxi_after_frame := fun _ => h.rxi_after_frame (by simp [hst])
  dly_fits := h.dly_fits
  dly_at_rest := fun _ _ => h.dly_at_rest (by simp [hst]) (by simp [hst])
  fault_iff := by simp [h.fault_iff, hst]
  fault_code := by simp [h.fault_code, hst]
  slot_empty := h.slot_empty

/-- Only the frame receiver counts `RXI` up, and not past 5 (R91). -/
theorem Acts.rxi_in_range (hu : Acts s u) (h : ControlInv s) : u.rxi.toNat ≤ 5 := by
  have hrange := h.rxi_in_range
  cases hu
  case byteStored hne =>
    have : s.rxi.toNat ≠ 5 := fun he => hne (BitVec.eq_of_toNat_eq he)
    simp only [State.setRxi_rxi]
    bv_omega
  case converted hconv => exact (h.converted hconv _ _).rxi_in_range
  all_goals simp [raiseFault, hrange]

/-- `S_STAT_RD` is entered with `RXI = 0` and goes on with `RXI = 1` after the first byte. -/
theorem Acts.rxi_in_status_read (hu : Acts s u) (h : ControlInv s) (hst : u.st = .statRd) : u.rxi.toNat ≤ 1 := by
  cases hu
  case readPending => exact h.rxi_in_status_read hst
  case converted hconv => exact (h.converted hconv _ _).rxi_in_status_read hst
  case statusSent => simp
  case statusHigh => simp
  all_goals simp_all [raiseFault]

/-- The sixth byte leaves `RXI` at 5, and no later state of a request writes it. -/
theorem Acts.rxi_after_frame (hu : Acts s u) (h : ControlInv s)
    (hst : u.st ∈ [SeqState.chkT, .chkH, .conv, .resp, .esc, .fault]) : u.rxi = 5 := by
  have hafter := h.rxi_after_frame
  cases hu
  case converted hconv => exact (h.converted hconv _ _).rxi_after_frame hst
  case frameStored h5 => exact h5
  all_goals simp_all [raiseFault]

/-- `DLY` is loaded with a value that fits (R7), and is only counted down. -/
theorem Acts.dly_fits (hu : Acts s u) (h : ControlInv s) : u.dly < 2 ^ Config.dlyW := by
  have hfits := h.dly_fits
  cases hu
  case resetSent => exact Config.resetSettleTicks_fits
  case measSent => exact Config.measSettleTicks_fits
  case resetTick => exact (Nat.sub_le _ _).trans_lt hfits
  case measTick => exact (Nat.sub_le _ _).trans_lt hfits
  case converted hconv => exact (h.converted hconv _ _).dly_fits
  all_goals exact hfits

/-- A wait state is left only with `DLY = 0`, and `DLY` is loaded only on entering one. -/
theorem Acts.dly_at_rest (hu : Acts s u) (h : ControlInv s) (hr : u.st ≠ .rstWait) (hm : u.st ≠ .measWait) :
    u.dly = 0 := by
  have hrest := h.dly_at_rest
  cases hu
  case converted hconv => exact (h.converted hconv _ _).dly_at_rest hr hm
  case resetSettled hzero => exact hzero
  case measSettled hzero => exact hzero
  all_goals simp_all [raiseFault]

/-- `FAULT` is set only with the entry into `S_FAULT`, which no action leaves. -/
theorem Acts.fault_iff (hu : Acts s u) (h : ControlInv s) : u.fault = true ↔ u.st = .fault := by
  have hfault := h.fault_iff
  cases hu
  case converted hconv => exact (h.converted hconv _ _).fault_iff
  case escalated => simp [raiseFault]
  all_goals simp_all

/-- `FAULT_CODE` is set only with the entry into `S_FAULT`, from the request then in `REQ_Q`, which stays. -/
theorem Acts.fault_code (hu : Acts s u) (h : ControlInv s) :
    u.faultCode = if u.st = .fault then faultCodeOf u.reqQ else .noFault := by
  have hcode := h.fault_code
  cases hu
  case converted hconv => exact (h.converted hconv _ _).fault_code
  case escalated => simp [raiseFault]
  all_goals simp_all

/-- No action fills the integrator's slot. -/
theorem Acts.slot_empty (hu : Acts s u) (h : ControlInv s) : u.ext = none := by
  have hext := h.slot_empty
  cases hu
  case converted hconv => exact (h.converted hconv _ _).slot_empty
  all_goals simp_all [raiseFault]

/-- Every action keeps the control invariant. -/
theorem Acts.controlInv (hu : Acts s u) (h : ControlInv s) : ControlInv u :=
  ⟨hu.rxi_in_range h, hu.rxi_in_status_read h, hu.rxi_after_frame h, hu.dly_fits h, hu.dly_at_rest h, hu.fault_iff h,
    hu.fault_code h, hu.slot_empty h⟩

end

/-- The clock's tick writes no register. -/
theorem ControlInv.tick {s : State} (h : ControlInv s) : ControlInv s.tick :=
  ⟨h.rxi_in_range, h.rxi_in_status_read, h.rxi_after_frame, h.dly_fits, h.dly_at_rest, h.fault_iff, h.fault_code,
    h.slot_empty⟩

/-- Settles O41: a reset step comes to the start of INIT, and every other step is an action that keeps each field of the
invariant. -/
theorem controlInvariantKept : Obligations.ControlInvariantKept := by
  unfold Obligations.ControlInvariantKept
  intro s t h hstep
  rcases step_cases hstep with ⟨-, rfl⟩ | ⟨-, u, hu, rfl⟩
  · exact controlInv_of_start rfl rfl rfl rfl rfl rfl
  · exact (hu.controlInv h).tick

/-! ## The cached pair -/

/-- No action but the conversion's writes the cached pair (R30(a)). -/
theorem Acts.pair_kept {s u : State} (hu : Acts s u) (hst : s.st ≠ .conv) :
    u.tempOut = s.tempOut ∧ u.humOut = s.humOut := by
  cases hu
  case converted hconv => exact absurd hconv hst
  all_goals simp [raiseFault]

/-- The only action into `S_CONV` is the passed humidity check (R30(a)). -/
theorem Acts.into_conv {s u : State} (hu : Acts s u) (hst : u.st = .conv) :
    s.st = .chkH ∧ s.frame.humFieldValid = true ∧ u.frame = s.frame := by
  cases hu
  case humPassed hs hvalid => exact ⟨hs, hvalid, rfl⟩
  case converted => cases (State.goto_st _ _).symm.trans hst
  all_goals simp_all [raiseFault]

/-- Rounding does not lead past the scaled span (R113). -/
theorem scaleRound_le (span : Nat) (w : Half) : scaleRound span w ≤ span * outScale := by
  have hw : w.toNat * (span * outScale) ≤ wordMax * (span * outScale) :=
    Nat.mul_le_mul_right _ (Nat.le_of_lt_succ w.isLt)
  unfold scaleRound
  rw [← Nat.lt_succ_iff, Nat.div_lt_iff_lt_mul (by decide)]
  calc w.toNat * (span * outScale) + (wordMax - 1) / 2
      ≤ wordMax * (span * outScale) + (wordMax - 1) / 2 := Nat.add_le_add_right hw _
    _ < wordMax * (span * outScale) + wordMax := Nat.add_lt_add_left (by decide) _
    _ = (span * outScale + 1) * wordMax := by ring

/-- The temperature fits 32 bits in two's complement, so narrowing loses nothing (R110). -/
theorem toInt_convT (w : Half) : (convT w).toInt = scaleRound tSpan w - 45000 := by
  have hle : scaleRound tSpan w ≤ 175000 := scaleRound_le tSpan w
  generalize hn : scaleRound tSpan w = n at hle
  rw [convT, hn, BitVec.toInt_ofInt, tOffset, outScale]
  exact Int.bmod_eq_of_le (by omega) (by omega)

/-- The humidity fits 32 bits (R111). -/
theorem toNat_convH (w : Half) : (convH w).toNat = scaleRound hSpan w := by
  have hle : scaleRound hSpan w ≤ 100000 := scaleRound_le hSpan w
  rw [convH, BitVec.toNat_ofNat, Nat.mod_eq_of_lt (by omega)]

/-- Settles O47: `S_CONV` is the only writer of the pair, its only entry is `S_CHK_H` with the temperature field checked
before, and the converter's values are in range. -/
theorem pairChangesOnlyAfterBothChecks : Obligations.PairChangesOnlyAfterBothChecks := by
  unfold Obligations.PairChangesOnlyAfterBothChecks
  refine ⟨fun s t hrst hstep hchange => ?_, fun s t hinv hstep hconv => ?_, fun s hrst hs => ?_⟩
  · by_contra hs
    rcases step_cases hstep with ⟨hr, -⟩ | ⟨-, u, hu, rfl⟩
    · simp [hr] at hrst
    · obtain ⟨htemp, hhum⟩ := hu.pair_kept hs
      simp [htemp, hhum] at hchange
  · rcases step_cases hstep with ⟨-, rfl⟩ | ⟨-, u, hu, rfl⟩
    · cases hconv
    · obtain ⟨hs, hhum, hframe⟩ := hu.into_conv hconv
      have htemp := hinv.temp_checked hs
      exact ⟨hs, beq_iff_eq.mp htemp, beq_iff_eq.mp hhum, hframe⟩
  · have hact : s.act = .next ((s.setReading (convT s.frame.tword) (convH s.frame.hword)).goto .resp) := by
      rw [act_conv hs, ruleConv]
    refine ⟨_, step_of_act_next hrst hact, rfl, rfl, ?_⟩
    have htemp : (convT s.frame.tword).toInt = scaleRound tSpan s.frame.tword - 45000 := toInt_convT _
    have hhum : (convH s.frame.hword).toNat = scaleRound hSpan s.frame.hword := toNat_convH _
    have htle : scaleRound tSpan s.frame.tword ≤ 175000 := scaleRound_le tSpan _
    have hhle : scaleRound hSpan s.frame.hword ≤ 100000 := scaleRound_le hSpan _
    rw [State.tick_tempOut, State.tick_humOut, State.goto_tempOut, State.goto_humOut, State.setReading_tempOut,
      State.setReading_humOut, htemp, hhum]
    omega

/-! ## Registers that are not read: the relation, in two parts -/

/-- Agreement in everything but the five registers without a reset value: the part of `SameLive` that holds in every
state. -/
structure SameControl (s t : State) : Prop where
  st : s.st = t.st
  dly : s.dly = t.dly
  rxi : s.rxi = t.rxi
  fault : s.fault = t.fault
  faultCode : s.faultCode = t.faultCode
  inputs : s.inputs = t.inputs
  cycle : s.cycle = t.cycle
  ext : s.ext = t.ext
  log : s.log = t.log

/-- What `SameLive` asks of the five registers without a reset value, state by state: the column "first read possible" of
R29 and the last read of each. -/
def SameData (st : SeqState) (s t : State) : Prop :=
  match st with
  | .rstCmd | .rstWait | .statCmd => True
  | .statRd => s.rxi ≠ 0 → highByte s.status = highByte t.status
  | .idle | .fault => s.status = t.status
  | .measCmd | .measWait | .esc => s.status = t.status ∧ s.reqQ = t.reqQ
  | .frameRd => s.status = t.status ∧ s.reqQ = t.reqQ ∧ ∀ i, i < s.rxi.toNat → s.frame.read i = t.frame.read i
  | .chkT | .chkH | .conv => s.status = t.status ∧ s.reqQ = t.reqQ ∧ s.frame = t.frame
  | .resp => s.status = t.status ∧ s.reqQ = t.reqQ ∧ s.tempOut = t.tempOut ∧ s.humOut = t.humOut

/-- `SameData` is the conditions of `SameLive`, split by the state. -/
theorem sameData_iff (st : SeqState) (s t : State) :
    SameData st s t ↔
      (st.serving = true → s.reqQ = t.reqQ) ∧
      (st = .frameRd → ∀ i, i < s.rxi.toNat → s.frame.read i = t.frame.read i) ∧
      (st ∈ [SeqState.chkT, .chkH, .conv] → s.frame = t.frame) ∧
      (st = .statRd → s.rxi ≠ 0 → highByte s.status = highByte t.status) ∧
      (st.initDone = true → s.status = t.status) ∧
      (st = .resp → s.tempOut = t.tempOut ∧ s.humOut = t.humOut) := by
  cases st <;> simp [SameData, SeqState.serving, SeqState.initDone, and_comm, and_assoc, and_left_comm]

theorem sameLive_iff {s t : State} {st : SeqState} (hst : s.st = st) :
    SameLive s t ↔ SameControl s t ∧ SameData st s t := by
  subst hst
  rw [sameData_iff]
  constructor
  · intro h
    exact ⟨⟨h.st, h.dly, h.rxi, h.fault, h.faultCode, h.inputs, h.cycle, h.ext, h.log⟩,
      h.reqQ, h.frame_received, h.frame_held, h.status_high, h.status_held, h.pair_shown⟩
  · rintro ⟨h, hreq, hreceived, hheld, hhigh, hstatus, hpair⟩
    exact ⟨h.st, h.dly, h.rxi, h.fault, h.faultCode, h.inputs, h.cycle, h.ext, h.log,
      hreq, hreceived, hheld, hhigh, hstatus, hpair⟩

theorem SameLive.control {s t : State} (h : SameLive s t) : SameControl s t := ((sameLive_iff rfl).mp h).1

theorem SameLive.refl (s : State) : SameLive s s :=
  ⟨rfl, rfl, rfl, rfl, rfl, rfl, rfl, rfl, rfl, fun _ => rfl, fun _ _ _ => rfl, fun _ => rfl, fun _ _ => rfl,
    fun _ => rfl, fun _ => ⟨rfl, rfl⟩⟩

/-! ## What each operation keeps of the agreement -/

namespace SameControl
variable {s t : State} (h : SameControl s t)
include h

theorem sample : s.sample = t.sample := by simp only [State.sample, h.inputs, h.cycle]

theorem goto (x : SeqState) : SameControl (s.goto x) (t.goto x) := { h with st := rfl }

theorem setDly (n : Nat) : SameControl (s.setDly n) (t.setDly n) := { h with dly := rfl }

theorem setRxi (i : BitVec 3) : SameControl (s.setRxi i) (t.setRxi i) := { h with rxi := rfl }

theorem setFrame (f g : Frame) : SameControl (s.setFrame f) (t.setFrame g) := { h with }

theorem setReqQ (p q : ReqOp) : SameControl (s.setReqQ p) (t.setReqQ q) := { h with }

theorem setStatus (v w : Half) : SameControl (s.setStatus v) (t.setStatus w) := { h with }

theorem setReading (a b c d : Word) : SameControl (s.setReading a b) (t.setReading c d) := { h with }

theorem setFault (c : FaultCode) : SameControl (s.setFault c) (t.setFault c) := { h with fault := rfl, faultCode := rfl }

theorem retireExt : SameControl s.retireExt t.retireExt := { h with ext := rfl }

theorem record (e : Event) : SameControl (s.record e) (t.record e) := { h with log := congrArg (· ++ [e]) h.log }

theorem busWrite (code : Half) : SameControl (s.busWrite code) (t.busWrite code) := h.record _

theorem tick : SameControl s.tick t.tick :=
  { h with inputs := congrArg List.tail h.inputs, cycle := congrArg (· + 1) h.cycle }

end SameControl

/-! ## Outcomes that agree -/

/-- Two outcomes that go on to agreeing states, or stop for the same reason. -/
inductive Alike : Result → Result → Prop
  | next {u v : State} : SameLive u v → Alike (.next u) (.next v)
  | fault (e : Fault) : Alike (.fault e) (.fault e)
  | refused (e : Refusal) : Alike (.refused e) (.refused e)

/-- A step that goes on to states with control registers that agree, and data registers that agree where the next state
can read them. -/
theorem alike_next {u v : State} (st : SeqState) (hst : u.st = st) (hc : SameControl u v) (hd : SameData st u v) :
    Alike (.next u) (.next v) :=
  .next ((sameLive_iff hst).mpr ⟨hc, hd⟩)

theorem sameLive_tick {u v : State} (h : SameLive u v) : SameLive u.tick v.tick := by
  obtain ⟨hc, hd⟩ := (sameLive_iff rfl).mp h
  exact (sameLive_iff u.tick_st).mpr ⟨hc.tick, hd⟩

theorem Alike.tick {p q : Result} (h : Alike p q) : Alike (andThen p State.tick) (andThen q State.tick) := by
  cases h with
  | next h => exact .next (sameLive_tick h)
  | fault e => exact .fault e
  | refused e => exact .refused e

/-! ## The action of each state on agreeing states -/

theorem highByte_withHighByte (v : Half) (b : Byte) : highByte (withHighByte v b) = b := extract_high_append b _

section
variable {s t : State} (h : SameLive s t)
include h

/-- A command acts alike if what follows it does. -/
theorem alike_writeCommand {code : Half} {follow : State → State}
    (hf : SameLive (follow (s.busWrite code)) (follow (t.busWrite code))) :
    Alike (writeCommand code follow s) (writeCommand code follow t) := by
  have hsample := h.control.sample
  cases hd : s.sample.cmdDone with
  | false => rw [writeCommand_wait hd, writeCommand_wait (hsample ▸ hd)]; exact .next h
  | true => rw [writeCommand_done hd, writeCommand_done (hsample ▸ hd)]; exact .next hf

theorem alike_rstCmd (hs : s.st = .rstCmd) : Alike s.act t.act := by
  obtain ⟨hc, -⟩ := (sameLive_iff hs).mp h
  have ht : t.st = .rstCmd := hc.st ▸ hs
  rw [act_rstCmd hs, act_rstCmd ht]
  refine alike_writeCommand h ?_
  rw [followFrom_here (by simp [hs]), followFrom_here (by simp [ht])]
  exact (sameLive_iff (st := .rstWait) rfl).mpr ⟨((hc.busWrite _).setDly _).goto _, trivial⟩

theorem alike_statCmd (hs : s.st = .statCmd) : Alike s.act t.act := by
  obtain ⟨hc, -⟩ := (sameLive_iff hs).mp h
  have ht : t.st = .statCmd := hc.st ▸ hs
  rw [act_statCmd hs, act_statCmd ht]
  refine alike_writeCommand h ?_
  rw [followFrom_here (by simp [hs]), followFrom_here (by simp [ht])]
  exact (sameLive_iff (st := .statRd) rfl).mpr ⟨((hc.busWrite _).setRxi _).goto _, fun h0 => absurd rfl h0⟩

theorem alike_measCmd (hs : s.st = .measCmd) : Alike s.act t.act := by
  obtain ⟨hc, hd⟩ := (sameLive_iff hs).mp h
  have ht : t.st = .measCmd := hc.st ▸ hs
  rw [act_measCmd hs, act_measCmd ht]
  refine alike_writeCommand h ?_
  rw [followFrom_here (by simp [hs]), followFrom_here (by simp [ht])]
  exact (sameLive_iff (st := .measWait) rfl).mpr ⟨((hc.busWrite _).setDly _).goto _, hd⟩

theorem alike_rstWait (hs : s.st = .rstWait) : Alike s.act t.act := by
  obtain ⟨hc, -⟩ := (sameLive_iff hs).mp h
  rw [act_rstWait hs, act_rstWait (hc.st ▸ hs), ruleRstWait, ruleRstWait, ← hc.dly]
  split
  · exact alike_next .statCmd rfl (hc.goto _) trivial
  · exact alike_next .rstWait hs (hc.setDly _) trivial

theorem alike_measWait (hs : s.st = .measWait) : Alike s.act t.act := by
  obtain ⟨hc, hstatus, hreq⟩ := (sameLive_iff hs).mp h
  rw [act_measWait hs, act_measWait (hc.st ▸ hs), ruleMeasWait, ruleMeasWait, ← hc.dly]
  split
  · exact alike_next .frameRd rfl ((hc.setRxi _).goto _) ⟨hstatus, hreq, fun _ hi => absurd hi (Nat.not_lt_zero _)⟩
  · exact alike_next .measWait hs (hc.setDly _) ⟨hstatus, hreq⟩

/-- The low byte is stored beside the high byte received before it. -/
theorem alike_statRd (hs : s.st = .statRd) : Alike s.act t.act := by
  obtain ⟨hc, hhigh⟩ := (sameLive_iff hs).mp h
  rw [act_statRd hs, act_statRd (hc.st ▸ hs), ruleStatRd, ruleStatRd, ← hc.sample, ← hc.rxi]
  split
  next =>
    split
    next =>
      exact alike_next .statRd hs ((hc.setStatus _ _).setRxi _)
        fun _ => (highByte_withHighByte _ _).trans (highByte_withHighByte _ _).symm
    next h0 =>
      have hb : highByte s.status = highByte t.status := hhigh h0
      rw [hb]
      exact alike_next .idle rfl (((hc.setStatus _ _).goto _).record _)
        (congrArg (joinBytes · s.sample.rxData) hb)
  next => exact .next h

/-- An accepted request writes `REQ_Q` before anything reads it. -/
theorem alike_idle (hs : s.st = .idle) : Alike s.act t.act := by
  obtain ⟨hc, hstatus⟩ := (sameLive_iff hs).mp h
  have ht : t.st = .idle := hc.st ▸ hs
  cases he : s.ext with
  | some c =>
    rw [act_idle_ext hs he, act_idle_ext ht (hc.ext ▸ he), exec_from_slot c hs, exec_from_slot c ht, ← hc.sample]
    split
    · exact alike_next .idle hs (hc.busWrite _).retireExt hstatus
    · exact .next h
  | none =>
    have he' : t.ext = none := hc.ext ▸ he
    cases hv : s.sample.reqValid with
    | false => rw [act_idle_quiet hs he hv, act_idle_quiet ht he' (hc.sample ▸ hv)]; exact .next h
    | true =>
      rw [act_idle_request hs he hv, act_idle_request ht he' (hc.sample ▸ hv), ← hc.sample,
        acceptRequest_idle hs, acceptRequest_idle ht]
      exact alike_next .measCmd rfl (((hc.setReqQ _ _).goto _).record _) ⟨hstatus, rfl⟩

theorem alike_chkT (hs : s.st = .chkT) : Alike s.act t.act := by
  obtain ⟨hc, hstatus, hreq, hframe⟩ := (sameLive_iff hs).mp h
  rw [act_chkT hs, act_chkT (hc.st ▸ hs), ruleChkT, ruleChkT, ← hframe]
  split
  · exact alike_next .chkH rfl (hc.goto _) ⟨hstatus, hreq, hframe⟩
  · exact alike_next .esc rfl (hc.goto _) ⟨hstatus, hreq⟩

theorem alike_chkH (hs : s.st = .chkH) : Alike s.act t.act := by
  obtain ⟨hc, hstatus, hreq, hframe⟩ := (sameLive_iff hs).mp h
  rw [act_chkH hs, act_chkH (hc.st ▸ hs), ruleChkH, ruleChkH, ← hframe]
  split
  · exact alike_next .conv rfl (hc.goto _) ⟨hstatus, hreq, hframe⟩
  · exact alike_next .esc rfl (hc.goto _) ⟨hstatus, hreq⟩

omit h in
/-- Storing one reading in both states. The values are variables here, which keeps the kernel from computing them. -/
theorem sameLive_setReading (hc : SameControl s t) (hstatus : s.status = t.status) (hreq : s.reqQ = t.reqQ)
    (temp hum : Word) : SameLive ((s.setReading temp hum).goto .resp) ((t.setReading temp hum).goto .resp) :=
  (sameLive_iff (st := .resp) rfl).mpr ⟨(hc.setReading _ _ _ _).goto _, hstatus, hreq, rfl, rfl⟩

/-- The conversion writes both values of the cached pair, from frames that agree. -/
theorem alike_conv (hs : s.st = .conv) : Alike s.act t.act := by
  obtain ⟨hc, hstatus, hreq, hframe⟩ := (sameLive_iff hs).mp h
  rw [act_conv hs, act_conv (hc.st ▸ hs), ruleConv, ruleConv, ← hframe]
  exact .next (sameLive_setReading hc hstatus hreq _ _)

theorem cachedValue_of_sameLive (hs : s.st = .resp) : s.cachedValue = t.cachedValue := by
  obtain ⟨-, -, hreq, htemp, hhum⟩ := (sameLive_iff hs).mp h
  simp only [State.cachedValue, hreq, htemp, hhum]

theorem alike_resp (hs : s.st = .resp) : Alike s.act t.act := by
  obtain ⟨hc, hstatus, hreq, -⟩ := (sameLive_iff hs).mp h
  rw [act_resp hs, act_resp (hc.st ▸ hs), ruleResp, ruleResp, ← hreq, ← cachedValue_of_sameLive h hs]
  exact alike_next .idle rfl ((hc.goto _).record _) hstatus

theorem alike_esc (hs : s.st = .esc) : Alike s.act t.act := by
  obtain ⟨hc, hstatus, hreq⟩ := (sameLive_iff hs).mp h
  rw [act_esc hs, act_esc (hc.st ▸ hs), ruleEsc, ruleEsc, ← hreq]
  exact alike_next .fault rfl (((hc.setFault _).goto _).record _) hstatus

theorem alike_fault (hs : s.st = .fault) : Alike s.act t.act := by
  rw [act_fault hs, act_fault (h.st ▸ hs)]
  exact .next h
end

/-! ## The frame receiver on agreeing states -/

/-- Whether a cell can be written does not depend on what the frame holds (R32). -/
theorem Frame.write_none_iff (f g : Frame) (i : Nat) (b : Byte) : f.write i b = none ↔ g.write i b = none := by
  rw [← Option.isNone_iff_eq_none, ← Option.isNone_iff_eq_none, ← Option.not_isSome, ← Option.not_isSome,
    Frame.write_isSome, Frame.write_isSome]

/-- One more received byte: the cells up to it agree. -/
theorem Frame.read_write_agree {f g f' g' : Frame} {n : Nat} {b : Byte} (hf : f.write n b = some f')
    (hg : g.write n b = some g') (h : ∀ i, i < n → f.read i = g.read i) : ∀ i, i < n + 1 → f'.read i = g'.read i := by
  intro i hi
  by_cases hin : i = n
  · rw [hin, read_write_self hf, read_write_self hg]
  · rw [read_write_ne hf hin, read_write_ne hg hin]
    exact h i (by omega)

/-- Each byte goes to the same cell; the sixth completes the frame, which then agrees in all its cells. -/
theorem alike_frameRd {s t : State} (h : SameLive s t) (hs : s.st = .frameRd) : Alike s.act t.act := by
  obtain ⟨hc, hstatus, hreq, hcells⟩ := (sameLive_iff hs).mp h
  rw [act_frameRd hs, act_frameRd (hc.st ▸ hs), ruleFrameRd, ruleFrameRd, ← hc.sample, ← hc.rxi]
  split
  next =>
    cases hf : s.frame.write s.rxi.toNat s.sample.rxData with
    | none => rw [(Frame.write_none_iff _ t.frame _ _).mp hf]; exact .fault _
    | some f =>
      cases hg : t.frame.write s.rxi.toNat s.sample.rxData with
      | none => rw [(Frame.write_none_iff _ s.frame _ _).mp hg] at hf; cases hf
      | some g =>
        have hagree := Frame.read_write_agree hf hg hcells
        dsimp only
        split
        next h5 =>
          rw [h5] at hagree
          have hfg : f = g := Frame.ext_read hagree
          rw [hfg]
          exact alike_next .chkT rfl (((hc.setFrame _ _).goto _).record _) ⟨hstatus, hreq, rfl⟩
        next h5 =>
          refine alike_next .frameRd hs ((hc.setFrame _ _).setRxi _) ⟨hstatus, hreq, fun i hi => hagree i ?_⟩
          exact hi.trans_le (by simp only [State.setRxi_rxi]; bv_omega)
  next => exact .next h

/-! ## The step and the outputs on agreeing states -/

theorem alike_act {s t : State} (h : SameLive s t) : Alike s.act t.act := by
  cases hs : s.st with
  | rstCmd => exact alike_rstCmd h hs
  | rstWait => exact alike_rstWait h hs
  | statCmd => exact alike_statCmd h hs
  | statRd => exact alike_statRd h hs
  | idle => exact alike_idle h hs
  | measCmd => exact alike_measCmd h hs
  | measWait => exact alike_measWait h hs
  | frameRd => exact alike_frameRd h hs
  | chkT => exact alike_chkT h hs
  | chkH => exact alike_chkH h hs
  | conv => exact alike_conv h hs
  | resp => exact alike_resp h hs
  | esc => exact alike_esc h hs
  | fault => exact alike_fault h hs

/-- A reset step reads nothing but the step's number and the samples (R140). -/
theorem resetStep_eq {s t : State} (hc : SameControl s t) : resetStep s = resetStep t := by
  simp only [resetStep, hc.cycle, hc.inputs]

theorem alike_step {s t : State} (h : SameLive s t) : Alike (step s) (step t) := by
  have hsample := h.control.sample
  cases hr : s.sample.rst with
  | true =>
    rw [step_of_rst hr, step_of_rst (hsample ▸ hr), resetStep_eq h.control]
    exact .next (.refl _)
  | false =>
    rw [step_of_act hr, step_of_act (hsample ▸ hr)]
    exact (alike_act h).tick

/-- The ports show a data register only where it is live: `STATUS` once INIT has stored it, `REQ_Q` and the cached pair in
`S_RESP` (R58). -/
theorem outputs_of_sameLive {s t : State} (h : SameLive s t) : outputs s = outputs t := by
  have hcmd : s.commandOut = t.commandOut := by simp only [State.commandOut, h.st, h.ext]
  have hread : s.readOut = t.readOut := by simp only [State.readOut, h.st]
  have hop : s.st = .resp → s.reqQ = t.reqQ := fun hs => h.reqQ (by rw [hs]; rfl)
  have hval : s.st = .resp → s.cachedValue = t.cachedValue := cachedValue_of_sameLive h
  have hstatus := h.status_held
  rw [h.st] at hop hval hstatus
  simp only [outputs, hcmd, hread, h.st, h.ext, h.fault, h.faultCode]
  congr 1
  · exact if_ctx_congr .rfl (fun hs => by rw [hop hs]) fun _ => rfl
  · exact if_ctx_congr .rfl (fun hs => by rw [hval hs]) fun _ => rfl
  · exact if_ctx_congr .rfl (fun hs => by rw [hstatus hs]) fun _ => rfl

/-- Settles O50: agreeing states show the same outputs, and every rule takes them to agreeing states. -/
theorem unwrittenRegistersNeverMatter : Obligations.UnwrittenRegistersNeverMatter := by
  unfold Obligations.UnwrittenRegistersNeverMatter
  intro s t h
  refine ⟨outputs_of_sameLive h, ?_⟩
  have hstep := alike_step h
  generalize step s = p at hstep
  generalize step t = q at hstep
  cases hstep with
  | next huv => simp [huv]
  | fault e => simp
  | refused e => simp

/-- Settles O51: in `S_RST_CMD` none of the five registers is live. -/
theorem resetZerosAreUnseen : Obligations.ResetZerosAreUnseen := by
  unfold Obligations.ResetZerosAreUnseen
  intro f q v t h
  exact (sameLive_iff (st := .rstCmd) rfl).mpr ⟨⟨rfl, rfl, rfl, rfl, rfl, rfl, rfl, rfl, rfl⟩, trivial⟩

end Sys2Proof.Machine

/-! # Proofs: the memory and the transport

The six cells of `FRAME`, the events a step records, and the answers of the transport that nothing waits for. -/

namespace Sys2Proof.Machine

/-! ## There is no seventh cell -/

theorem Frame.read_isSome (f : Frame) (k : Nat) : (f.read k).isSome = decide (k < 6) := by
  match k with
  | 0 | 1 | 2 | 3 | 4 | 5 => rfl
  | n + 6 => simp [Frame.read]

theorem Frame.write_eq_none {f : Frame} {i : Nat} {b : Byte} (hi : 5 < i) : f.write i b = none := by
  rw [← Option.not_isSome_iff_eq_none, Frame.write_isSome, decide_eq_true_eq]
  omega

/-- Settles O25: `Frame.read` has six arms, and the frame receiver's write to a seventh cell finds none. -/
theorem noSeventhCell : Obligations.NoSeventhCell := by
  unfold Obligations.NoSeventhCell
  refine ⟨fun f k => by rw [Frame.read_isSome, decide_eq_true_eq], fun s hrst hs hv hrxi => ?_⟩
  rw [step_of_act hrst, act_frameRd hs, ruleFrameRd, if_pos hv, Frame.write_eq_none hrxi]
  rfl

/-! ## What a step records -/

theorem highByte_withLowByte (v : Half) (b : Byte) : highByte (withLowByte v b) = highByte v :=
  extract_high_append _ _

theorem lowByte_withLowByte (v : Half) (b : Byte) : lowByte (withLowByte v b) = b := extract_low_append _ _

theorem faultCodeOf_eq_ite (op : ReqOp) : faultCodeOf op = if op = .rdt then .tempCrcFail else .humCrcFail := by
  cases op <;> rfl

theorem State.cachedValue_eq_ite (s : State) : s.cachedValue = if s.reqQ = .rdt then s.tempOut else s.humOut := by
  cases h : s.reqQ <;> simp [State.cachedValue, h]

/-- What the action from s, in the state st, to u records with an empty slot: a command when its write has ended, the bytes of
a read when the last one is there, an acceptance, a response, the fault (R34 to R37, R117, R120, R121). -/
def recorded (st : SeqState) (s u : State) : List Event :=
  match st with
  | .rstCmd => if s.sample.cmdDone then [.busWrite 0x44 0x30 0xA2] else []
  | .statCmd => if s.sample.cmdDone then [.busWrite 0x44 0xF3 0x2D] else []
  | .measCmd => if s.sample.cmdDone then [.busWrite 0x44 0x24 0x00] else []
  | .statRd =>
    if s.sample.rxValid ∧ s.rxi ≠ 0 then [.busRead devAddr [highByte u.status, lowByte u.status]] else []
  | .frameRd => if s.sample.rxValid ∧ s.rxi = 5 then [.busRead devAddr u.frame.bytes] else []
  | .idle => if s.sample.reqValid then [.accepted (.ofCode s.sample.reqOp)] else []
  | .resp => [.responded s.reqQ s.cachedValue]
  | .esc => [.faulted (faultCodeOf s.reqQ)]
  | .rstWait | .measWait | .chkT | .chkH | .conv | .fault => []

/-- Every action appends to the log what it records, and nothing else. -/
theorem Acts.log_eq {s u : State} (hu : Acts s u) (hext : s.ext = none) : u.log = s.log ++ recorded s.st s u := by
  cases hu
  case commandPending hs hd =>
    simp only [List.mem_cons, List.not_mem_nil, or_false] at hs
    obtain hs | hs | hs := hs <;> simp [recorded, hs, hd]
  case readPending hs hv =>
    simp only [List.mem_cons, List.not_mem_nil, or_false] at hs
    obtain hs | hs := hs <;> simp [recorded, hs, hv]
  case slotPending he _ => cases hext.symm.trans he
  case slotSent he _ => cases hext.symm.trans he
  case statusLow hs hv h0 =>
    simp only [recorded, hs, if_pos (And.intro hv h0), State.record_log, State.goto_log, State.setStatus_log,
      State.record_status, State.goto_status, State.setStatus_status, highByte_withLowByte, lowByte_withLowByte]
  all_goals simp_all [recorded, raiseFault, devAddr, highByte, lowByte]

/-- Settles O33: a step without reset is one of the actions, each of which appends `recorded`; the clauses are its values
state by state. -/
theorem eventsOfAStep : Obligations.EventsOfAStep := by
  unfold Obligations.EventsOfAStep
  intro s t hrst hext hstep
  rcases step_cases hstep with ⟨hr, -⟩ | ⟨-, u, hu, rfl⟩
  · simp [hrst] at hr
  have hlog : ∀ st, s.st = st → u.tick.log = s.log ++ recorded st s u.tick := fun _ hs => hs ▸ hu.log_eq hext
  refine ⟨hlog .rstCmd, hlog .statCmd, hlog .measCmd, fun hs hrxi => ?_, hlog .frameRd, hlog .idle, fun hs => ?_,
    fun hs => ?_, fun hs => ?_⟩
  · have hlast : s.rxi ≠ 0 ↔ s.rxi = 1 := by bv_omega
    exact (hlog .statRd hs).trans (congrArg _ (if_congr (and_congr_right' hlast) rfl rfl))
  · rw [← State.cachedValue_eq_ite]
    exact hlog .resp hs
  · rw [← faultCodeOf_eq_ite]
    exact hlog .esc hs
  · have hnone : recorded s.st s u.tick = [] := by
      simp only [List.mem_cons, List.not_mem_nil, or_false] at hs
      obtain hs | hs | hs | hs | hs | hs := hs <;> rw [hs] <;> rfl
    rw [hlog s.st rfl, hnone, List.append_nil]

/-! ## Input samples that make no difference -/

/-- The state with other samples placed. -/
def State.withSamples (s : State) (l : List Inputs) : State := { s with inputs := l }

section
variable (s : State) (l : List Inputs)

@[simp] theorem State.withSamples_rxi : (s.withSamples l).rxi = s.rxi := rfl
@[simp] theorem State.withSamples_frame : (s.withSamples l).frame = s.frame := rfl

/-- With the samples l placed instead, the next one differs at most in ports that s does not wait for: the transport's answers
to a write and a read that are not under way, and a request outside `S_IDLE` (R36, R37, R123). -/
structure SameAwaited : Prop where
  later : l.tail = s.inputs.tail
  rst : (s.withSamples l).sample.rst = s.sample.rst
  cmdDone : s.commandOut.isSome = true → (s.withSamples l).sample.cmdDone = s.sample.cmdDone
  rxValid : s.readOut.isSome = true → (s.withSamples l).sample.rxValid = s.sample.rxValid
  rxData : s.readOut.isSome = true → (s.withSamples l).sample.rxData = s.sample.rxData
  reqValid : s.st = .idle → (s.withSamples l).sample.reqValid = s.sample.reqValid
  reqOp : s.st = .idle → (s.withSamples l).sample.reqOp = s.sample.reqOp

end

section
variable {s : State} {l : List Inputs}

theorem next_ite_withSamples {c : Prop} [Decidable c] {u v u' v' : State} (hu : u' = u.withSamples l)
    (hv : v' = v.withSamples l) :
    .next (if c then u' else v') = andThen (.next (if c then u else v)) (State.withSamples · l) := by
  rw [hu, hv, ← apply_ite (State.withSamples · l), andThen]

theorem writeCommand_withSamples {code : Half} {follow : State → State}
    (hd : (s.withSamples l).sample.cmdDone = s.sample.cmdDone)
    (hf : follow ((s.busWrite code).withSamples l) = (follow (s.busWrite code)).withSamples l) :
    writeCommand code follow (s.withSamples l) = andThen (writeCommand code follow s) (State.withSamples · l) := by
  cases hc : s.sample.cmdDone with
  | false => rw [writeCommand_wait hc, writeCommand_wait (hd.trans hc)]; rfl
  | true => rw [writeCommand_done hc, writeCommand_done (hd.trans hc)]; exact congrArg _ hf

theorem followFrom_withSamples {here : SeqState} {enter : State → State}
    (he : enter (s.withSamples l) = (enter s).withSamples l) :
    followFrom here enter (s.withSamples l) = (followFrom here enter s).withSamples l := by
  by_cases h : s.st = here
  · rw [followFrom_here h, followFrom_here (s := s.withSamples l) h, he]
  · rw [followFrom_elsewhere h, followFrom_elsewhere (s := s.withSamples l) h]; rfl

end

section
variable {s : State} {l : List Inputs} (h : SameAwaited s l)
include h

theorem act_idle_withSamples (hs : s.st = .idle) :
    (s.withSamples l).act = andThen s.act (State.withSamples · l) := by
  have hs' : (s.withSamples l).st = .idle := hs
  cases he : s.ext with
  | some c =>
    rw [act_idle_ext hs he, act_idle_ext hs' he, exec_from_slot c hs, exec_from_slot c hs',
      h.cmdDone (by simp [State.commandOut, hs, he])]
    exact next_ite_withSamples rfl rfl
  | none =>
    cases hv : s.sample.reqValid with
    | false => rw [act_idle_quiet hs he hv, act_idle_quiet hs' he ((h.reqValid hs).trans hv)]; rfl
    | true =>
      rw [act_idle_request hs he hv, act_idle_request hs' he ((h.reqValid hs).trans hv), h.reqOp hs,
        acceptRequest_idle hs, acceptRequest_idle hs']
      rfl

theorem act_statRd_withSamples (hs : s.st = .statRd) :
    (s.withSamples l).act = andThen s.act (State.withSamples · l) := by
  have hread : s.readOut.isSome = true := by simp [State.readOut, hs]
  rw [act_statRd hs, act_statRd (s := s.withSamples l) hs, ruleStatRd, ruleStatRd, h.rxValid hread, h.rxData hread]
  cases s.sample.rxValid with
  | false => rfl
  | true => exact next_ite_withSamples (c := s.rxi = 0) rfl rfl

theorem act_frameRd_withSamples (hs : s.st = .frameRd) :
    (s.withSamples l).act = andThen s.act (State.withSamples · l) := by
  have hread : s.readOut.isSome = true := by simp [State.readOut, hs]
  rw [act_frameRd hs, act_frameRd (s := s.withSamples l) hs, ruleFrameRd, ruleFrameRd, h.rxValid hread, h.rxData hread,
    State.withSamples_rxi, State.withSamples_frame]
  cases s.sample.rxValid with
  | false => rfl
  | true =>
    cases s.frame.write s.rxi.toNat s.sample.rxData with
    | none => rfl
    | some f => exact next_ite_withSamples (c := s.rxi = 5) rfl rfl

/-- Every action reads only the inputs it awaits, and leaves the samples as they are placed. -/
theorem act_withSamples : (s.withSamples l).act = andThen s.act (State.withSamples · l) := by
  have hst : ∀ {st}, s.st = st → (s.withSamples l).st = st := id
  cases hs : s.st with
  | rstCmd =>
    rw [act_rstCmd hs, act_rstCmd (hst hs)]
    exact writeCommand_withSamples (h.cmdDone (by simp [State.commandOut, hs])) (followFrom_withSamples rfl)
  | statCmd =>
    rw [act_statCmd hs, act_statCmd (hst hs)]
    exact writeCommand_withSamples (h.cmdDone (by simp [State.commandOut, hs])) (followFrom_withSamples rfl)
  | measCmd =>
    rw [act_measCmd hs, act_measCmd (hst hs)]
    exact writeCommand_withSamples (h.cmdDone (by simp [State.commandOut, hs])) (followFrom_withSamples rfl)
  | rstWait =>
    rw [act_rstWait hs, act_rstWait (hst hs), ruleRstWait, ruleRstWait]
    exact next_ite_withSamples rfl rfl
  | measWait =>
    rw [act_measWait hs, act_measWait (hst hs), ruleMeasWait, ruleMeasWait]
    exact next_ite_withSamples rfl rfl
  | statRd => exact act_statRd_withSamples h hs
  | idle => exact act_idle_withSamples h hs
  | frameRd => exact act_frameRd_withSamples h hs
  | chkT => rw [act_chkT hs, act_chkT (hst hs)]; rfl
  | chkH => rw [act_chkH hs, act_chkH (hst hs)]; rfl
  | conv => rw [act_conv hs, act_conv (hst hs)]; rfl
  | resp => rw [act_resp hs, act_resp (hst hs)]; rfl
  | esc => rw [act_esc hs, act_esc (hst hs)]; rfl
  | fault => rw [act_fault hs, act_fault (hst hs)]; rfl

/-- The step is the same: the tick, or the reset, drops the one sample that differs. -/
theorem step_withSamples : step (s.withSamples l) = step s := by
  cases hr : s.sample.rst with
  | true =>
    rw [step_of_rst hr, step_of_rst (h.rst.trans hr)]
    simp [resetStep, State.withSamples, h.later]
  | false =>
    rw [step_of_act hr, step_of_act (h.rst.trans hr), act_withSamples h]
    cases hact : s.act with
    | next u =>
      have hinputs : u.inputs = s.inputs := (acts_inputs (acts_of_act hact)).1
      simp [andThen, State.withSamples, State.tick, hinputs, h.later]
    | fault e => rfl
    | refused e => rfl

end

/-- Settles O49: what the ports do not await, the step does not read; then it is dropped. -/
theorem unawaitedAnswersIgnored : Obligations.UnawaitedAnswersIgnored := by
  unfold Obligations.UnawaitedAnswersIgnored
  intro s i rest d v b hi hcmd hread
  have hsample : s.sample = i := by rw [State.sample, hi]
  refine step_withSamples (l := { i with cmdDone := d, rxValid := v, rxData := b } :: rest) ?_
  exact
    { later := by rw [hi]; rfl
      rst := by rw [hsample]; rfl
      cmdDone := fun hc => by rw [hsample]; exact hcmd hc
      rxValid := fun hr => by rw [hsample]; exact (hread hr).1
      rxData := fun hr => by rw [hsample]; exact (hread hr).2
      reqValid := fun _ => by rw [hsample]; rfl
      reqOp := fun _ => by rw [hsample]; rfl }

end Sys2Proof.Machine

/-! # Proofs: the encoding and the ports

Which bytes decode to an instruction (R49, R50, R54, R60, R61), which bytes a step fetches, and what the output ports carry
(R58). -/

namespace Sys2Proof

/-! ## The closed set of codes -/

/-- The codes of the closed set are those the table lists. -/
theorem mem_commandCodes_iff {code : Half} : code ∈ commandCodes ↔ ∃ i, commandOf code = some i := by
  constructor
  · intro h
    simp only [commandCodes, List.mem_cons, List.not_mem_nil, or_false] at h
    obtain rfl | rfl | rfl | rfl | rfl | rfl | rfl | rfl | rfl | rfl | rfl := h <;> exact ⟨_, rfl⟩
  · rintro ⟨i, h⟩
    have hcode := commandCode_of_commandOf h
    cases i <;> simp only [Instr.commandCode, Option.some.injEq, reduceCtorEq] at hcode <;> subst hcode <;> decide

theorem decodeCommand_ok_iff {code : Half} : (∃ i, decodeCommand code = .ok i) ↔ code ∈ commandCodes := by
  rw [mem_commandCodes_iff]
  cases h : commandOf code <;> simp [decodeCommand, h]

theorem decodeCommand_of_not_mem {code : Half} (h : code ∉ commandCodes) :
    decodeCommand code = .error (.notACommand code) := by
  have hnone : commandOf code = none := by
    rw [Option.eq_none_iff_forall_ne_some]
    exact fun i hi => h (mem_commandCodes_iff.mpr ⟨i, hi⟩)
  rw [decodeCommand, hnone]

/-- The 16-bit value of two bytes, the first one high (R49). -/
theorem toNat_append_bytes (b0 b1 : Byte) : (b0 ++ b1 : Half).toNat = b0.toNat * 256 + b1.toNat := by
  rw [BitVec.toNat_append, ← Nat.shiftLeft_add_eq_or_of_lt b1.isLt, Nat.shiftLeft_eq]

theorem mem_commandCodes_iff_toNat {code : Half} :
    code ∈ commandCodes ↔ code.toNat ∈ commandCodes.map BitVec.toNat :=
  (List.mem_map_of_injective BitVec.toNat_injective).symm

/-! ## Requests -/

theorem decodeRequest_ok_iff {b : Byte} : (∃ i, decodeRequest b = .ok i) ↔ b = 0 ∨ b = 1 := by
  have hbit : b.toNat < 2 ↔ b = 0 ∨ b = 1 := by bv_omega
  rw [← hbit]
  by_cases h : b.toNat < 2 <;> simp [decodeRequest, h]

/-- The byte of a request decodes to it (R54, R55). -/
theorem decode_requestByte (op : BitVec 1) : decode [requestByte op] = .ok (requestOf op) := by
  revert op
  decide

/-! ## The decoder -/

/-- Settles O1: the words are the bytes of the eleven commands and of the two requests. -/
theorem writtenWordsDecode : Obligations.WrittenWordsDecode := by
  unfold Obligations.WrittenWordsDecode
  exact ⟨Machine.decode_command .softReset, Machine.decode_command .readStatus, Machine.decode_command .measHighPoll,
    Machine.decode_command .clearStatus, Machine.decode_command .measHighStretch, Machine.decode_command .measMedPoll,
    Machine.decode_command .measMedStretch, Machine.decode_command .measLowPoll, Machine.decode_command .measLowStretch,
    Machine.decode_command .heaterEnable, Machine.decode_command .heaterDisable, decode_requestByte 0,
    decode_requestByte 1⟩

/-- Settles O4: the three arms of the decoder, by the number of bytes. -/
theorem onlyListedWordsDecode : Obligations.OnlyListedWordsDecode := by
  unfold Obligations.OnlyListedWordsDecode
  refine ⟨fun b0 b1 => ?_, fun b => decodeRequest_ok_iff, fun bytes h1 h2 => ?_⟩
  · rw [← toNat_append_bytes]
    exact decodeCommand_ok_iff.trans mem_commandCodes_iff_toNat
  · match bytes with
    | [] => rfl
    | [_] => exact absurd rfl h1
    | [_, _] => exact absurd rfl h2
    | _ :: _ :: _ :: _ => rfl

namespace Machine

/-- Settles O9: the decoder rejects the bytes by their value, and `runBytes` passes the reason on. -/
theorem foreignCodeRefused : Obligations.ForeignCodeRefused := by
  unfold Obligations.ForeignCodeRefused
  intro s code h
  change runBytes (commandBytes code) s = _
  rw [runBytes, decode_commandBytes, decodeCommand_of_not_mem h]

/-! ## What is on the bus ports -/

/-- The write port carries the command of a command state, or in `S_IDLE` the integrator's (R58; log entry 5). -/
theorem State.commandOut_eq_some_iff {s : State} {c : Command} :
    s.commandOut = some c ↔ s.st = .rstCmd ∧ c = .softReset ∨ s.st = .statCmd ∧ c = .readStatus ∨
      s.st = .measCmd ∧ c = .measHighPoll ∨ s.st = .idle ∧ s.ext = some c := by
  cases hs : s.st <;> simp [State.commandOut, hs, eq_comm]

theorem State.commandOut_eq_none_iff {s : State} :
    s.commandOut = none ↔ s.st ∉ [SeqState.rstCmd, .statCmd, .measCmd] ∧ (s.st = .idle → s.ext = none) := by
  cases hs : s.st <;> simp [State.commandOut, hs]

theorem State.readOut_eq_some_iff {s : State} {n : BitVec 3} :
    s.readOut = some n ↔ s.st = .statRd ∧ n = 2 ∨ s.st = .frameRd ∧ n = 6 := by
  cases hs : s.st <;> simp [State.readOut, hs, statusLen, frameLen, eq_comm]

/-! ## The bytes a step fetches -/

theorem State.fetch_command {s : State} {c : Command} (h : s.commandOut = some c) :
    s.fetch = some (commandBytes c.code) := by
  rw [State.fetch, h]

theorem State.fetch_request {s : State} (h : s.commandOut = none) (hs : s.st = .idle)
    (hv : s.sample.reqValid = true) : s.fetch = some [requestByte s.sample.reqOp] := by
  rw [State.fetch, h]
  exact if_pos ⟨hs, hv⟩

theorem State.fetch_nothing {s : State} (h : s.commandOut = none) (hr : ¬ (s.st = .idle ∧ s.sample.reqValid = true)) :
    s.fetch = none := by
  rw [State.fetch, h]
  exact if_neg hr

/-- What a step fetches is an instruction, in every state. -/
theorem State.fetch_decodes {s : State} {bytes : List Byte} (h : s.fetch = some bytes) : ∃ i, decode bytes = .ok i := by
  cases hc : s.commandOut with
  | some c =>
    cases (fetch_command hc).symm.trans h
    exact ⟨_, decode_command c⟩
  | none =>
    by_cases hr : s.st = .idle ∧ s.sample.reqValid = true
    · cases (fetch_request hc hr.1 hr.2).symm.trans h
      exact ⟨_, decode_requestByte _⟩
    · cases (fetch_nothing hc hr).symm.trans h

/-- Settles O8: the command on the write port, else the request, else nothing. -/
theorem fetchedBytes : Obligations.FetchedBytes := by
  unfold Obligations.FetchedBytes
  intro s
  have hcommand {c : Command} := fun h => State.fetch_command (State.commandOut_eq_some_iff (s := s) (c := c).mpr h)
  have hidle : s.st = .idle → s.ext = none → s.commandOut = none := fun hs he =>
    State.commandOut_eq_none_iff.mpr ⟨by simp [hs], fun _ => he⟩
  refine ⟨fun hs => hcommand (.inl ⟨hs, rfl⟩), fun hs => hcommand (.inr (.inl ⟨hs, rfl⟩)),
    fun hs => hcommand (.inr (.inr (.inl ⟨hs, rfl⟩))), fun c hs he => hcommand (.inr (.inr (.inr ⟨hs, he⟩))),
    fun hs he hv ho => ?_, fun hs he hv ho => ?_, fun hs he hv => ?_, fun hs => ?_⟩
  · rw [State.fetch_request (hidle hs he) hs hv, ho]
    rfl
  · rw [State.fetch_request (hidle hs he) hs hv, ho]
    rfl
  · exact State.fetch_nothing (hidle hs he) (by simp [hv])
  · have hidle' : s.st ≠ .idle := fun h => hs (by simp [h])
    refine State.fetch_nothing (State.commandOut_eq_none_iff.mpr ⟨fun h => hs ?_, fun h => absurd h hidle'⟩)
      fun h => hidle' h.1
    exact List.mem_append_left [.idle] h

/-! ## No step is refused -/

/-- Every instruction has a meaning in every state: a bus write waits or ends, a request is accepted or ignored. -/
theorem exec_goes_on (i : Instr) (s : State) : ∃ t, exec i s = .next t := by
  cases i <;> exact ⟨_, rfl⟩

/-- The one rule that can stop stops with a fault (log entry 8). -/
theorem ruleFrameRd_ne_refused (s : State) (why : Refusal) : ruleFrameRd s ≠ .refused why := by
  rw [ruleFrameRd]
  split
  · split <;> simp
  · simp

theorem sequencerRule_ne_refused (s : State) (why : Refusal) : sequencerRule s ≠ .refused why := by
  cases hs : s.st
  case frameRd => simpa only [sequencerRule, hs] using ruleFrameRd_ne_refused s why
  all_goals
    simp [sequencerRule, hs, ruleRstWait, ruleStatRd, ruleMeasWait, ruleChkT, ruleChkH, ruleConv, ruleResp, ruleEsc]

theorem act_ne_refused (s : State) (why : Refusal) : s.act ≠ .refused why := by
  cases hf : s.fetch with
  | some bytes =>
    obtain ⟨i, hi⟩ := State.fetch_decodes hf
    obtain ⟨t, ht⟩ := exec_goes_on i s
    simp [State.act, hf, runBytes, hi, ht]
  | none => simpa only [State.act, hf] using sequencerRule_ne_refused s why

theorem andThen_ne_refused {r : Result} {f : State → State} {why : Refusal} (h : r ≠ .refused why) :
    andThen r f ≠ .refused why := by
  cases r with
  | next u => nofun
  | fault e => nofun
  | refused e => exact h

theorem step_ne_refused (s : State) (why : Refusal) : step s ≠ .refused why := by
  cases hr : s.sample.rst with
  | true => simp [step_of_rst hr]
  | false => rw [step_of_act hr]; exact andThen_ne_refused (act_ne_refused s why)

/-! ## The output ports -/

theorem outputs_cmdData_eq_some_iff {s : State} {code : Half} :
    (outputs s).cmdData = some code ↔ ∃ c, s.commandOut = some c ∧ c.code = code := Option.map_eq_some_iff

/-- Settles O60: the port carries the code of a `Command`, whose bytes decode to it; a step fetches only such bytes and those
of a request, and no instruction or rule answers with a refusal. -/
theorem onlyListedCodesOnThePort : Obligations.OnlyListedCodesOnThePort := by
  unfold Obligations.OnlyListedCodesOnThePort
  refine ⟨fun s code h => ?_, fun s code hext h => ?_, fun c => ⟨c.instr, decode_command c, c.instr_commandCode⟩,
    step_ne_refused⟩
  · obtain ⟨c, -, rfl⟩ := outputs_cmdData_eq_some_iff.mp h
    exact c.code_mem
  · obtain ⟨c, hc, rfl⟩ := outputs_cmdData_eq_some_iff.mp h
    obtain ⟨-, rfl⟩ | ⟨-, rfl⟩ | ⟨-, rfl⟩ | ⟨-, he⟩ := State.commandOut_eq_some_iff.mp hc
    · exact .inl rfl
    · exact .inr (.inl rfl)
    · exact .inr (.inr rfl)
    · cases hext.symm.trans he

theorem ReqOp.code_eq_ite (op : ReqOp) : op.code = if op = .rdt then 0 else 1 := by cases op <;> rfl

/-- `status_word` has a meaning once INIT has stored both status bytes (R58). -/
theorem SeqState.initDone_iff (st : SeqState) :
    st.initDone = true ↔ st ∉ [SeqState.rstCmd, .rstWait, .statCmd, .statRd] := by cases st <;> decide

theorem outputs_cmdValid_iff {s : State} (hext : s.ext = none) :
    (outputs s).cmdValid = true ↔ s.st ∈ [SeqState.rstCmd, .statCmd, .measCmd] := by
  change s.commandOut.isSome = true ↔ _
  rw [← not_iff_not, Bool.not_eq_true, Option.isSome_eq_false_iff, Option.isNone_iff_eq_none,
    State.commandOut_eq_none_iff]
  exact and_iff_left fun _ => hext

theorem outputs_rdValid_iff {s : State} : (outputs s).rdValid = true ↔ s.st ∈ [SeqState.statRd, .frameRd] := by
  change s.readOut.isSome = true ↔ _
  simp [Option.isSome_iff_exists, State.readOut_eq_some_iff, exists_or]

/-- Settles O32, port by port. -/
theorem outputPorts : Obligations.OutputPorts := by
  unfold Obligations.OutputPorts
  intro s hext
  have hcmd {c : Command} := fun h =>
    outputs_cmdData_eq_some_iff.mpr ⟨c, State.commandOut_eq_some_iff (s := s).mpr h, rfl⟩
  refine
    ⟨by simp [outputs, hext], by simp [outputs], fun hs => ⟨?_, ?_⟩, outputs_cmdValid_iff hext, rfl,
      fun hs => hcmd (.inl ⟨hs, rfl⟩), fun hs => hcmd (.inr (.inl ⟨hs, rfl⟩)),
      fun hs => hcmd (.inr (.inr (.inl ⟨hs, rfl⟩))), outputs_rdValid_iff, rfl,
      fun hs => State.readOut_eq_some_iff.mpr (.inl ⟨hs, rfl⟩), fun hs => State.readOut_eq_some_iff.mpr (.inr ⟨hs, rfl⟩),
      rfl, congrArg FaultCode.code, congrArg FaultCode.code, congrArg FaultCode.code,
      fun hs => if_pos ((SeqState.initDone_iff _).mpr hs)⟩
  · rw [← ReqOp.code_eq_ite]
    exact if_pos hs
  · rw [← State.cachedValue_eq_ite]
    exact if_pos hs

end Machine

end Sys2Proof

/-! # Proofs: the instructions

What the eleven commands (R63 to R75) and the two requests (R117) do in one step: one inversion lemma for `exec`, and from it
what each instruction changes and what it leaves unchanged. -/

namespace Sys2Proof

/-- The sequencer state that emits a command, for the three commands that CORE emits (R65 to R67). -/
def Instr.ownState : Instr → Option Machine.SeqState
  | .softReset => some .rstCmd
  | .readStatus => some .statCmd
  | .measHighPoll => some .measCmd
  | _ => none

namespace Machine

/-- The instruction that a request kind is (R55). -/
def ReqOp.instr : ReqOp → Instr
  | .rdt => .rdt
  | .rdh => .rdh

theorem ReqOp.instr_commandCode (op : ReqOp) : op.instr.commandCode = none := by cases op <;> rfl

theorem highByte_toNat (v : Half) : (highByte v).toNat = v.toNat / 256 := by
  simp only [highByte, BitVec.extractLsb'_toNat, Nat.shiftRight_eq_div_pow]
  omega

theorem lowByte_toNat (v : Half) : (lowByte v).toNat = v.toNat % 256 := by
  simp [lowByte, BitVec.extractLsb'_toNat]

/-! ## A command in the step that ends its write, and in a step before it -/

section
variable {s : State} {code : Half} {here : SeqState} {enter : State → State}

theorem writeCommand_followFrom_here (hdone : s.sample.cmdDone = true) (hst : s.st = here) :
    writeCommand code (followFrom here enter) s = .next (enter (s.busWrite code)) := by
  rw [writeCommand_done hdone, followFrom_here (by simpa using hst)]

theorem writeCommand_followFrom_elsewhere (hdone : s.sample.cmdDone = true) (hst : s.st ≠ here) :
    writeCommand code (followFrom here enter) s = .next (s.busWrite code).retireExt := by
  rw [writeCommand_done hdone, followFrom_elsewhere (by simpa using hst)]

/-- A command that its own state has not emitted is the bus write alone, and frees the slot (R68; log entries 5 and 9). -/
theorem exec_command_elsewhere {i : Instr} (hcode : i.commandCode = some code) (hdone : s.sample.cmdDone = true)
    (hst : i.ownState ≠ some s.st) : exec i s = .next (s.busWrite code).retireExt := by
  cases i <;> cases hcode
  case softReset => exact writeCommand_followFrom_elsewhere hdone fun h => hst (congrArg some h.symm)
  case readStatus => exact writeCommand_followFrom_elsewhere hdone fun h => hst (congrArg some h.symm)
  case measHighPoll => exact writeCommand_followFrom_elsewhere hdone fun h => hst (congrArg some h.symm)
  all_goals exact writeCommand_done hdone

/-- While the transport has not ended the write, a command changes nothing (R36). -/
theorem exec_command_pending {i : Instr} (hcode : i.commandCode = some code) (hwait : s.sample.cmdDone = false) :
    exec i s = .next s := by
  obtain ⟨_, hexec, -⟩ := exec_command hcode
  rw [hexec, writeCommand_wait hwait]

end

/-- Settles O11: the write, then what `S_RST_CMD` enters, or elsewhere the free slot. -/
theorem softResetStartsSettleWait : Obligations.SoftResetStartsSettleWait := by
  unfold Obligations.SoftResetStartsSettleWait
  exact fun s hdone => ⟨writeCommand_followFrom_here hdone, writeCommand_followFrom_elsewhere hdone⟩

/-- Settles O12: the write, then what `S_STAT_CMD` enters, or elsewhere the free slot. -/
theorem readStatusStartsStatusRead : Obligations.ReadStatusStartsStatusRead := by
  unfold Obligations.ReadStatusStartsStatusRead
  exact fun s hdone => ⟨writeCommand_followFrom_here hdone, writeCommand_followFrom_elsewhere hdone⟩

/-- Settles O13: the write, then what `S_MEAS_CMD` enters, or elsewhere the free slot. -/
theorem measHighPollStartsSettleWait : Obligations.MeasHighPollStartsSettleWait := by
  unfold Obligations.MeasHighPollStartsSettleWait
  exact fun s hdone => ⟨writeCommand_followFrom_here hdone, writeCommand_followFrom_elsewhere hdone⟩

/-- Settles O14: no state of the sequencer emits a constant, so each is executed away from a state of its own. -/
theorem constantCommandsOnlyWrite : Obligations.ConstantCommandsOnlyWrite := by
  unfold Obligations.ConstantCommandsOnlyWrite
  intro s hdone
  have hwrite {i : Instr} (code : Half) (hcode : i.commandCode = some code) (hown : i.ownState = none) :
      exec i s = .next (s.busWrite code).retireExt := exec_command_elsewhere hcode hdone (by simp [hown])
  exact ⟨hwrite 0x3041 rfl rfl, hwrite 0x2C06 rfl rfl, hwrite 0x240B rfl rfl, hwrite 0x2C0D rfl rfl, hwrite 0x2416 rfl rfl,
    hwrite 0x2C10 rfl rfl, hwrite 0x306D rfl rfl, hwrite 0x3066 rfl rfl⟩

/-! ## All that an instruction can do -/

/-- What executing an instruction can come to, each with the conditions under which it does. -/
inductive Executes (s : State) : Instr → State → Prop
  | pending {i : Instr} {code : Half} : i.commandCode = some code → s.sample.cmdDone = false → Executes s i s
  | resetSent : s.st = .rstCmd → s.sample.cmdDone = true →
      Executes s .softReset (((s.busWrite 0x30A2).setDly Config.resetSettleTicks).goto .rstWait)
  | statusSent : s.st = .statCmd → s.sample.cmdDone = true →
      Executes s .readStatus (((s.busWrite 0xF32D).setRxi 0).goto .statRd)
  | measSent : s.st = .measCmd → s.sample.cmdDone = true →
      Executes s .measHighPoll (((s.busWrite 0x2400).setDly Config.measSettleTicks).goto .measWait)
  | sentElsewhere {i : Instr} {code : Half} : i.commandCode = some code → s.sample.cmdDone = true →
      i.ownState ≠ some s.st → Executes s i (s.busWrite code).retireExt
  | accepted (op : ReqOp) : s.st = .idle →
      Executes s op.instr (((s.setReqQ op).goto .measCmd).record (.accepted op))
  | ignored (op : ReqOp) : s.st ≠ .idle → Executes s op.instr s

/-- A request is accepted in `S_IDLE` and ignored elsewhere (R117, R123). -/
theorem executes_acceptRequest (op : ReqOp) (s : State) : Executes s op.instr (acceptRequest op s) := by
  by_cases hs : s.st = .idle
  · rw [acceptRequest_idle hs]
    exact .accepted op hs
  · rw [acceptRequest_busy hs]
    exact .ignored op hs

/-- A command whose write ends in its own state enters the state that follows it (R79, R81, R84). -/
theorem executes_in_ownState {i : Instr} {s t : State} (hown : i.ownState = some s.st) (hdone : s.sample.cmdDone = true)
    (h : exec i s = .next t) : Executes s i t := by
  cases i <;> simp only [Instr.ownState, Option.some.injEq, reduceCtorEq] at hown
  case softReset =>
    cases (writeCommand_followFrom_here hdone hown.symm).symm.trans h
    exact .resetSent hown.symm hdone
  case readStatus =>
    cases (writeCommand_followFrom_here hdone hown.symm).symm.trans h
    exact .statusSent hown.symm hdone
  case measHighPoll =>
    cases (writeCommand_followFrom_here hdone hown.symm).symm.trans h
    exact .measSent hown.symm hdone

/-- Inversion of `exec`: its next state is one of those listed. -/
theorem executes_of_exec {i : Instr} {s t : State} (h : exec i s = .next t) : Executes s i t := by
  cases hcode : i.commandCode with
  | some code =>
    cases hdone : s.sample.cmdDone with
    | false =>
      cases (exec_command_pending hcode hdone).symm.trans h
      exact .pending hcode hdone
    | true =>
      by_cases hown : i.ownState = some s.st
      · exact executes_in_ownState hown hdone h
      · cases (exec_command_elsewhere hcode hdone hown).symm.trans h
        exact .sentElsewhere hcode hdone hown
  | none =>
    cases i <;> cases hcode <;> cases h
    · exact executes_acceptRequest .rdt s
    · exact executes_acceptRequest .rdh s

/-! ## What an instruction leaves unchanged -/

/-- Two states with the registers that no instruction writes, and the pins and the step number, in common. -/
structure SameUntouched (s t : State) : Prop where
  frame : t.frame = s.frame
  status : t.status = s.status
  tempOut : t.tempOut = s.tempOut
  humOut : t.humOut = s.humOut
  fault : t.fault = s.fault
  faultCode : t.faultCode = s.faultCode
  inputs : t.inputs = s.inputs
  cycle : t.cycle = s.cycle

namespace Executes

variable {i : Instr} {s t : State} {code : Half}

theorem sameUntouched (h : Executes s i t) : SameUntouched s t := by
  cases h <;> exact ⟨rfl, rfl, rfl, rfl, rfl, rfl, rfl, rfl⟩

/-- A command whose write has ended records that write and nothing else (R34, R63). -/
theorem log_of_command (h : Executes s i t) (hcode : i.commandCode = some code) (hdone : s.sample.cmdDone = true) :
    t.log = s.log ++ [.busWrite devAddr (highByte code) (lowByte code)] := by
  cases h with
  | pending _ hwait => cases hdone.symm.trans hwait
  | resetSent => cases hcode; rfl
  | statusSent => cases hcode; rfl
  | measSent => cases hcode; rfl
  | sentElsewhere hcode' => cases hcode.symm.trans hcode'; rfl
  | accepted op => cases op.instr_commandCode.symm.trans hcode
  | ignored op => cases op.instr_commandCode.symm.trans hcode

/-- An instruction records at most one event, at the end of the log. -/
theorem log_grows (h : Executes s i t) : s.log <+: t.log := by
  cases h
  case pending => exact ⟨[], List.append_nil _⟩
  case ignored => exact ⟨[], List.append_nil _⟩
  all_goals exact ⟨_, rfl⟩

theorem reqQ_eq (h : Executes s i t) (hrdt : i ≠ .rdt) (hrdh : i ≠ .rdh) : t.reqQ = s.reqQ := by
  cases h
  case accepted op _ =>
    cases op
    · exact absurd rfl hrdt
    · exact absurd rfl hrdh
  all_goals rfl

theorem dly_eq (h : Executes s i t) (hreset : i ≠ .softReset) (hmeas : i ≠ .measHighPoll) : t.dly = s.dly := by
  cases h
  case resetSent => exact absurd rfl hreset
  case measSent => exact absurd rfl hmeas
  all_goals rfl

theorem rxi_eq (h : Executes s i t) (hread : i ≠ .readStatus) : t.rxi = s.rxi := by
  cases h
  case statusSent => exact absurd rfl hread
  all_goals rfl

/-- Only a command frees the integrator's slot (log entry 5). -/
theorem ext_eq (h : Executes s i t) (hreq : i.commandCode = none) : t.ext = s.ext := by
  cases h with
  | sentElsewhere hcode => cases hreq.symm.trans hcode
  | resetSent | statusSent | measSent => cases hreq
  | pending | accepted | ignored => rfl

/-- A constant command, which no state emits, does not move the sequencer (R68 to R75). -/
theorem st_eq (h : Executes s i t) (hformat : i.format = .cmd16) (hemitted : i.emitted = false) : t.st = s.st := by
  cases h
  case resetSent => cases hemitted
  case statusSent => cases hemitted
  case measSent => cases hemitted
  case accepted op _ => cases op <;> cases hformat
  all_goals rfl

end Executes

/-- Settles O10: the command's write at its end is in the log, and `REQ_Q` is a request's to change. -/
theorem commandsWriteTwoBytesMsbFirst : Obligations.CommandsWriteTwoBytesMsbFirst := by
  unfold Obligations.CommandsWriteTwoBytesMsbFirst
  intro i code s hcode
  refine ⟨exec_command_pending hcode, fun hdone => ?_⟩
  obtain ⟨t, ht⟩ := exec_goes_on i s
  have hexec := executes_of_exec ht
  have hsame := hexec.sameUntouched
  have hreq : t.reqQ = s.reqQ := hexec.reqQ_eq (by rintro rfl; cases hcode) (by rintro rfl; cases hcode)
  exact ⟨t, highByte code, lowByte code, ht, highByte_toNat code, lowByte_toNat code, hexec.log_of_command hcode hdone,
    hsame.frame, hreq, hsame.status, hsame.tempOut, hsame.humOut, hsame.fault, hsame.faultCode, hsame.inputs, hsame.cycle⟩

/-- Settles O16: what every instruction keeps, then register by register what its kind keeps. -/
theorem instructionsKeepTheRest : Obligations.InstructionsKeepTheRest := by
  unfold Obligations.InstructionsKeepTheRest
  intro i s t ht
  have hexec := executes_of_exec ht
  have hsame := hexec.sameUntouched
  refine ⟨⟨fun k => by rw [hsame.frame], hsame.status, hsame.tempOut, hsame.humOut, hsame.fault, hsame.faultCode,
    hsame.inputs, hsame.cycle, hexec.log_grows⟩, hexec.reqQ_eq, hexec.dly_eq, hexec.rxi_eq, fun hreq => ?_, hexec.st_eq⟩
  rcases hreq with rfl | rfl <;> exact hexec.ext_eq rfl

end Machine

end Sys2Proof

/-! # Proofs: the sequencer

One step of each state (R77 to R89), the runs such steps make up (R90 to R96), and the history of a run (R95, R124). -/

namespace Sys2Proof.Machine

/-! ## The ports of each state -/

/-- A waiting or checking state asserts no valid output (R58). -/
theorem validOutputsLow_of_mem {s : State}
    (hs : s.st ∈ [SeqState.rstWait, .measWait, .chkT, .chkH, .conv, .esc, .fault]) : ValidOutputsLow (outputs s) := by
  revert hs
  cases hs : s.st <;> simp [ValidOutputsLow, outputs, State.commandOut, State.readOut, hs]

theorem reqReady_eq_false {s : State} (hs : s.st ≠ .idle) : (outputs s).reqReady = false := by simp [outputs, hs]

theorem outputs_of_commandOut {s : State} {c : Command} (h : s.commandOut = some c) :
    (outputs s).cmdValid = true ∧ (outputs s).cmdAddr = 0x44 ∧ (outputs s).cmdData = some c.code := by
  simp [outputs, h, devAddr]

theorem outputs_of_readOut {s : State} {n : BitVec 3} (h : s.readOut = some n) :
    (outputs s).rdValid = true ∧ (outputs s).rdAddr = 0x44 ∧ (outputs s).rdLen = some n := by
  simp [outputs, h, devAddr]

/-! ## One step of each state -/

section
variable {s : State} (hrst : s.sample.rst = false)
include hrst

/-- While the awaited answer does not come, a step changes no register (R36, R37, R93). -/
theorem step_pending (h : s.st ∈ [SeqState.rstCmd, .statCmd, .measCmd] ∧ s.sample.cmdDone = false ∨
    s.st ∈ [SeqState.statRd, .frameRd] ∧ s.sample.rxValid = false) : step s = .next s.tick := by
  refine step_of_act_next hrst ?_
  simp only [List.mem_cons, List.not_mem_nil, or_false] at h
  obtain ⟨hs | hs | hs, hd⟩ | ⟨hs | hs, hv⟩ := h
  · exact (act_rstCmd hs).trans (writeCommand_wait hd)
  · exact (act_statCmd hs).trans (writeCommand_wait hd)
  · exact (act_measCmd hs).trans (writeCommand_wait hd)
  · rw [act_statRd hs, ruleStatRd]
    simp [hv]
  · rw [act_frameRd hs, ruleFrameRd]
    simp [hv]

theorem step_rstCmd (hs : s.st = .rstCmd) (hd : s.sample.cmdDone = true) :
    step s = .next (((s.busWrite 0x30A2).setDly Config.resetSettleTicks).goto .rstWait).tick :=
  step_of_act_next hrst ((act_rstCmd hs).trans (writeCommand_followFrom_here hd hs))

theorem step_statCmd (hs : s.st = .statCmd) (hd : s.sample.cmdDone = true) :
    step s = .next (((s.busWrite 0xF32D).setRxi 0).goto .statRd).tick :=
  step_of_act_next hrst ((act_statCmd hs).trans (writeCommand_followFrom_here hd hs))

theorem step_measCmd (hs : s.st = .measCmd) (hd : s.sample.cmdDone = true) :
    step s = .next (((s.busWrite 0x2400).setDly Config.measSettleTicks).goto .measWait).tick :=
  step_of_act_next hrst ((act_measCmd hs).trans (writeCommand_followFrom_here hd hs))

/-- A settle wait counts down (R80, R85). -/
theorem step_wait_tick (hs : s.st ∈ [SeqState.rstWait, .measWait]) (hdly : s.dly ≠ 0) :
    step s = .next (s.setDly (s.dly - 1)).tick := by
  refine step_of_act_next hrst ?_
  simp only [List.mem_cons, List.not_mem_nil, or_false] at hs
  obtain hs | hs := hs
  · rw [act_rstWait hs, ruleRstWait, if_neg hdly]
  · rw [act_measWait hs, ruleMeasWait, if_neg hdly]

theorem step_rstWait_settled (hs : s.st = .rstWait) (hdly : s.dly = 0) : step s = .next (s.goto .statCmd).tick :=
  step_of_act_next hrst (by rw [act_rstWait hs, ruleRstWait, if_pos hdly])

theorem step_measWait_settled (hs : s.st = .measWait) (hdly : s.dly = 0) :
    step s = .next ((s.setRxi 0).goto .frameRd).tick :=
  step_of_act_next hrst (by rw [act_measWait hs, ruleMeasWait, if_pos hdly])

theorem step_statRd_high (hs : s.st = .statRd) (hv : s.sample.rxValid = true) (h0 : s.rxi = 0) :
    step s = .next ((s.setStatus (withHighByte s.status s.sample.rxData)).setRxi 1).tick :=
  step_of_act_next hrst (by rw [act_statRd hs, ruleStatRd, if_pos hv, if_pos h0])

theorem step_statRd_low (hs : s.st = .statRd) (hv : s.sample.rxValid = true) (h0 : s.rxi ≠ 0) :
    step s = .next (((s.setStatus (withLowByte s.status s.sample.rxData)).goto .idle).record
      (.busRead devAddr [highByte s.status, s.sample.rxData])).tick :=
  step_of_act_next hrst (by rw [act_statRd hs, ruleStatRd, if_pos hv, if_neg h0])

theorem step_frameRd_byte {f : Frame} (hs : s.st = .frameRd) (hv : s.sample.rxValid = true)
    (hw : s.frame.write s.rxi.toNat s.sample.rxData = some f) (h5 : s.rxi ≠ 5) :
    step s = .next ((s.setFrame f).setRxi (s.rxi + 1)).tick :=
  step_of_act_next hrst (by simp only [act_frameRd hs, ruleFrameRd, if_pos hv, hw, if_neg h5])

theorem step_frameRd_last {f : Frame} (hs : s.st = .frameRd) (hv : s.sample.rxValid = true)
    (hw : s.frame.write 5 s.sample.rxData = some f) (h5 : s.rxi = 5) :
    step s = .next (((s.setFrame f).goto .chkT).record (.busRead devAddr f.bytes)).tick :=
  step_of_act_next hrst (by
    have hcell : s.rxi.toNat = 5 := congrArg BitVec.toNat h5
    simp only [act_frameRd hs, ruleFrameRd, if_pos hv, hcell, hw, if_pos h5])

theorem step_chkT_passed (hs : s.st = .chkT) (h : s.frame.tempFieldValid = true) :
    step s = .next (s.goto .chkH).tick :=
  step_of_act_next hrst (by rw [act_chkT hs, ruleChkT, if_pos h])

theorem step_chkT_failed (hs : s.st = .chkT) (h : ¬ s.frame.tempFieldValid = true) :
    step s = .next (s.goto .esc).tick :=
  step_of_act_next hrst (by rw [act_chkT hs, ruleChkT, if_neg h])

theorem step_chkH_passed (hs : s.st = .chkH) (h : s.frame.humFieldValid = true) :
    step s = .next (s.goto .conv).tick :=
  step_of_act_next hrst (by rw [act_chkH hs, ruleChkH, if_pos h])

theorem step_chkH_failed (hs : s.st = .chkH) (h : ¬ s.frame.humFieldValid = true) :
    step s = .next (s.goto .esc).tick :=
  step_of_act_next hrst (by rw [act_chkH hs, ruleChkH, if_neg h])

theorem step_conv (hs : s.st = .conv) :
    step s = .next ((s.setReading (convT s.frame.tword) (convH s.frame.hword)).goto .resp).tick :=
  step_of_act_next hrst (act_conv hs)

end

/-- The pair after a conversion. The values are variables here, which keeps the kernel from computing them. -/
theorem pair_of_setReading (s : State) (temp hum : Word) :
    ((s.setReading temp hum).goto .resp).tempOut = temp ∧ ((s.setReading temp hum).goto .resp).humOut = hum :=
  ⟨rfl, rfl⟩

/-- The conversion's step as an update of the record, likewise for any two values. -/
theorem tick_setReading (s : State) (temp hum : Word) :
    (.next ((s.setReading temp hum).goto .resp).tick : Result) =
      .next { s.tick with tempOut := temp, humOut := hum, st := .resp } := rfl

theorem Frame.tempFieldValid_iff {f : Frame} :
    f.tempFieldValid = true ↔ crc8 [f.tempMsb, f.tempLsb] = f.tempCrc := beq_iff_eq

theorem Frame.humFieldValid_iff {f : Frame} : f.humFieldValid = true ↔ crc8 [f.humMsb, f.humLsb] = f.humCrc :=
  beq_iff_eq

/-- The cells 0 to 5 can be written (R32), and writing one leaves the others. -/
theorem Frame.exists_write (f : Frame) {i : Nat} (hi : i < 6) (b : Byte) :
    ∃ g, f.write i b = some g ∧ g.read i = some b ∧ ∀ k, k ≠ i → g.read k = f.read k := by
  have hsome : (f.write i b).isSome = true := by simp [Frame.write_isSome, hi]
  obtain ⟨g, hg⟩ := Option.isSome_iff_exists.mp hsome
  exact ⟨g, hg, read_write_self hg, fun k hk => read_write_ne hg hk⟩

/-- Settles O7: the step's action is `runBytes`, which executes what the decoder answers. -/
theorem stepRunsDecodedInstruction : Obligations.StepRunsDecodedInstruction := by
  unfold Obligations.StepRunsDecodedInstruction
  intro s bytes i hrst hfetch hdecode
  rw [step_of_act hrst, State.act, hfetch]
  simp only [runBytes, hdecode]

/-- Settles O17: the write ends and the reset settle wait starts, or the state goes on; the port carries
`SOFT_RESET`. -/
theorem stepInRstCmd : Obligations.StepInRstCmd := by
  unfold Obligations.StepInRstCmd
  intro s hrst hs
  exact ⟨fun hd => ⟨_, step_rstCmd hrst hs hd⟩, fun hd => step_pending hrst (.inl ⟨by simp [hs], hd⟩),
    outputs_of_commandOut (c := .softReset) (State.commandOut_eq_some_iff.mpr (.inl ⟨hs, rfl⟩))⟩

/-- Settles O19: the write ends and the status read starts, or the state goes on; the port carries `READ_STATUS`. -/
theorem stepInStatCmd : Obligations.StepInStatCmd := by
  unfold Obligations.StepInStatCmd
  intro s hrst hs
  exact ⟨fun hd => ⟨_, step_statCmd hrst hs hd⟩, fun hd => step_pending hrst (.inl ⟨by simp [hs], hd⟩),
    outputs_of_commandOut (c := .readStatus) (State.commandOut_eq_some_iff.mpr (.inr (.inl ⟨hs, rfl⟩)))⟩

/-- Settles O22: the write ends and the measurement settle wait starts, or the state goes on; the port carries
`MEAS_HIGH_POLL`. -/
theorem stepInMeasCmd : Obligations.StepInMeasCmd := by
  unfold Obligations.StepInMeasCmd
  intro s hrst hs
  exact ⟨fun hd => ⟨_, step_measCmd hrst hs hd⟩, fun hd => step_pending hrst (.inl ⟨by simp [hs], hd⟩),
    outputs_of_commandOut (c := .measHighPoll) (State.commandOut_eq_some_iff.mpr (.inr (.inr (.inl ⟨hs, rfl⟩))))⟩

/-- Settles O24: the cell `FRAME[RXI]` exists and is the one written; the sixth byte ends the state. -/
theorem stepInFrameRd : Obligations.StepInFrameRd := by
  unfold Obligations.StepInFrameRd
  intro s hrst hs
  refine ⟨fun hv hrxi => ?_, fun hv h5 => ?_, fun hv => step_pending hrst (.inr ⟨by simp [hs], hv⟩),
    outputs_of_readOut (State.readOut_eq_some_iff.mpr (.inr ⟨hs, rfl⟩))⟩
  · obtain ⟨f, hw, hcells⟩ := s.frame.exists_write (i := s.rxi.toNat) (by omega) s.sample.rxData
    have h5 : s.rxi ≠ 5 := by bv_omega
    exact ⟨f, step_frameRd_byte hrst hs hv hw h5, hcells⟩
  · obtain ⟨f, hw, hcells⟩ := s.frame.exists_write (i := 5) (by omega) s.sample.rxData
    exact ⟨f, _, step_frameRd_last hrst hs hv hw h5, hcells⟩

/-- Settles O26: the comparison of the temperature field alone decides where the step goes. -/
theorem stepInChkT : Obligations.StepInChkT := by
  unfold Obligations.StepInChkT
  intro s hrst hs
  exact ⟨fun h => step_chkT_passed hrst hs (Frame.tempFieldValid_iff.mpr h),
    fun h => step_chkT_failed hrst hs (mt Frame.tempFieldValid_iff.mp h)⟩

/-- Settles O27: the comparison of the humidity field decides; that the other field passed is in the history
invariant. -/
theorem stepInChkH : Obligations.StepInChkH := by
  unfold Obligations.StepInChkH
  intro s hrst hs
  exact ⟨fun h => step_chkH_passed hrst hs (Frame.humFieldValid_iff.mpr h),
    fun h => step_chkH_failed hrst hs (mt Frame.humFieldValid_iff.mp h),
    fun hinv => Frame.tempFieldValid_iff.mp (hinv.temp_checked hs)⟩

/-- Settles O28: the conversion's step, with the words `TWORD` and `HWORD` written out (R24). -/
theorem stepInConv : Obligations.StepInConv := by
  unfold Obligations.StepInConv
  exact fun s hrst hs => (step_conv hrst hs).trans (tick_setReading s _ _)

/-! ## `STATUS` influences no step outside its own read state (R82) -/

section
variable {s : State} {v : Half}

theorem next_ite_setStatus {c : Prop} [Decidable c] {u w u' w' : State} (hu : u' = u.setStatus v)
    (hw : w' = w.setStatus v) :
    .next (if c then u' else w') = andThen (.next (if c then u else w)) (State.setStatus · v) := by
  rw [hu, hw, ← apply_ite (State.setStatus · v), andThen]

/-- A command emitted by its own state: what follows its write does not touch `STATUS`. -/
theorem writeCommand_setStatus {code : Half} {enter : State → State}
    (he : ∀ t : State, enter (t.setStatus v) = (enter t).setStatus v) :
    writeCommand code (followFrom s.st enter) (s.setStatus v) =
      andThen (writeCommand code (followFrom s.st enter) s) (State.setStatus · v) := by
  refine next_ite_setStatus ?_ rfl
  rw [followFrom_here (by rfl), followFrom_here (by rfl)]
  exact he (s.busWrite code)

theorem act_idle_setStatus (hs : s.st = .idle) : (s.setStatus v).act = andThen s.act (State.setStatus · v) := by
  have hs' : (s.setStatus v).st = .idle := hs
  cases hext : s.ext with
  | some c =>
    rw [act_idle_ext hs hext, act_idle_ext hs' hext, exec_from_slot c hs, exec_from_slot c hs']
    exact next_ite_setStatus rfl rfl
  | none =>
    cases hv : s.sample.reqValid with
    | false => rw [act_idle_quiet hs hext hv, act_idle_quiet hs' hext hv]; rfl
    | true =>
      rw [act_idle_request hs hext hv, act_idle_request hs' hext hv, acceptRequest_idle hs, acceptRequest_idle hs']
      rfl

theorem act_frameRd_setStatus (hs : s.st = .frameRd) :
    (s.setStatus v).act = andThen s.act (State.setStatus · v) := by
  rw [act_frameRd hs, act_frameRd (s := s.setStatus v) hs, ruleFrameRd, ruleFrameRd, State.setStatus_sample,
    State.setStatus_frame, State.setStatus_rxi]
  cases s.sample.rxValid with
  | false => rfl
  | true =>
    cases s.frame.write s.rxi.toNat s.sample.rxData with
    | none => rfl
    | some f => exact next_ite_setStatus (c := s.rxi = 5) rfl rfl

theorem act_setStatus (hs : s.st ≠ .statRd) : (s.setStatus v).act = andThen s.act (State.setStatus · v) := by
  have hst : ∀ {st}, s.st = st → (s.setStatus v).st = st := id
  cases h : s.st with
  | statRd => exact absurd h hs
  | rstCmd =>
    rw [act_rstCmd h, act_rstCmd (hst h), execSoftReset, execSoftReset, ← h]
    exact writeCommand_setStatus fun _ => rfl
  | statCmd =>
    rw [act_statCmd h, act_statCmd (hst h), execReadStatus, execReadStatus, ← h]
    exact writeCommand_setStatus fun _ => rfl
  | measCmd =>
    rw [act_measCmd h, act_measCmd (hst h), execMeasHighPoll, execMeasHighPoll, ← h]
    exact writeCommand_setStatus fun _ => rfl
  | rstWait =>
    rw [act_rstWait h, act_rstWait (hst h), ruleRstWait, ruleRstWait]
    exact next_ite_setStatus rfl rfl
  | measWait =>
    rw [act_measWait h, act_measWait (hst h), ruleMeasWait, ruleMeasWait]
    exact next_ite_setStatus rfl rfl
  | idle => exact act_idle_setStatus h
  | frameRd => exact act_frameRd_setStatus h
  | chkT => rw [act_chkT h, act_chkT (hst h)]; rfl
  | chkH => rw [act_chkH h, act_chkH (hst h)]; rfl
  | conv => rw [act_conv h, act_conv (hst h)]; rfl
  | resp => rw [act_resp h, act_resp (hst h)]; rfl
  | esc => rw [act_esc h, act_esc (hst h)]; rfl
  | fault => rw [act_fault h, act_fault (hst h)]; rfl

theorem step_setStatus (hrst : s.sample.rst = false) (hs : s.st ≠ .statRd) :
    step (s.setStatus v) = andThen (step s) (State.setStatus · v) := by
  rw [step_of_act hrst, step_of_act (s := s.setStatus v) hrst, act_setStatus hs]
  cases s.act <;> rfl

end

/-- Settles O20: the two halves of `STATUS` are written in turn, and the action of every other state commutes with
writing `STATUS`. -/
theorem stepInStatRd : Obligations.StepInStatRd := by
  unfold Obligations.StepInStatRd
  intro s hrst
  refine ⟨fun hs => ⟨fun hv h0 => step_statRd_high hrst hs hv h0, fun hv h1 => ?_,
    fun hv => step_pending hrst (.inr ⟨by simp [hs], hv⟩),
    outputs_of_readOut (State.readOut_eq_some_iff.mpr (.inl ⟨hs, rfl⟩))⟩, fun hs v => step_setStatus hrst hs⟩
  exact ⟨_, step_statRd_low hrst hs hv (by simp [h1])⟩

/-! ## Every step goes on (R77) -/

/-- The frame receiver goes on while `RXI` names a cell. -/
theorem ruleFrameRd_goes_on {s : State} (h : s.rxi.toNat < 6) : ∃ u, ruleFrameRd s = .next u := by
  obtain ⟨f, hw, -⟩ := s.frame.exists_write h s.sample.rxData
  rw [ruleFrameRd, hw]
  split <;> exact ⟨_, rfl⟩

/-- A fetched instruction goes on, and of the sequencer's rules only that of `S_FRAME_RD` could stop. -/
theorem act_goes_on {s : State} (h : s.rxi.toNat ≤ 5) : ∃ u, s.act = .next u := by
  cases hf : s.fetch with
  | some bytes =>
    obtain ⟨i, hi⟩ := State.fetch_decodes hf
    obtain ⟨u, hu⟩ := exec_goes_on i s
    exact ⟨u, by simp [State.act, hf, runBytes, hi, hu]⟩
  | none =>
    simp only [State.act, hf, sequencerRule]
    cases s.st
    case frameRd => exact ruleFrameRd_goes_on (Nat.lt_succ_of_le h)
    all_goals exact ⟨_, rfl⟩

/-- Settles O42: a reset step goes on, and so does every action while `RXI` is in range. -/
theorem everyStepGoesOn : Obligations.EveryStepGoesOn := by
  unfold Obligations.EveryStepGoesOn
  intro s h
  cases hrst : s.sample.rst with
  | true => exact ⟨_, step_of_rst hrst⟩
  | false =>
    obtain ⟨u, hu⟩ := act_goes_on h.rxi_in_range
    exact ⟨_, step_of_act_next hrst hu⟩

/-! ## Runs along a known trajectory -/

/-- The state k steps later if no register changes in them: the samples have been used, and the step number has grown
(log entry 1). -/
def State.ticks (s : State) (k : Nat) : State := { s with inputs := s.inputs.drop k, cycle := s.cycle + k }

section
variable (s : State) (k : Nat)

theorem State.ticks_succ : s.ticks (k + 1) = (s.ticks k).tick := by
  simp [State.ticks, State.tick, List.tail_drop, Nat.add_assoc]

@[simp] theorem State.ticks_sample : (s.ticks k).sample = s.sampleAt k := by
  rw [← sampleAt_zero, State.sampleAt, State.sampleAt]
  simp [State.ticks, List.getElem?_drop]

@[simp] theorem State.ticks_st : (s.ticks k).st = s.st := rfl
@[simp] theorem State.ticks_dly : (s.ticks k).dly = s.dly := rfl

end

/-- A run follows every trajectory whose steps are steps of CORE. -/
theorem run_trajectory {f : Nat → State} {k : Nat} (h : ∀ j, j < k → step (f j) = .next (f (j + 1))) :
    run k (f 0) = .next (f k) := by
  induction k with
  | zero => rfl
  | succ k ih =>
    rw [run_add (ih fun j hj => h j (by omega))]
    exact run_one (h k (by omega))

/-- While the awaited answer does not come, no register changes (R93). -/
theorem run_pending {s : State} {k : Nat} (hnr : NoReset s k)
    (h : s.st ∈ [SeqState.rstCmd, .statCmd, .measCmd] ∧ (∀ j, j < k → (s.sampleAt j).cmdDone = false) ∨
      s.st ∈ [SeqState.statRd, .frameRd] ∧ (∀ j, j < k → (s.sampleAt j).rxValid = false)) :
    run k s = .next (s.ticks k) := by
  refine run_trajectory (f := s.ticks) fun j hj => ?_
  rw [State.ticks_succ]
  refine step_pending ((s.ticks_sample j).symm ▸ hnr j hj) ?_
  rw [State.ticks_sample]
  exact h.imp (And.imp_right fun hd => hd j hj) (And.imp_right fun hv => hv j hj)

/-- Settles O39: no register changes in any of the steps, and the five states are busy. -/
theorem waitsWithoutBound : Obligations.WaitsWithoutBound := by
  unfold Obligations.WaitsWithoutBound
  intro s k hnr h
  refine ⟨run_pending hnr h, reqReady_eq_false fun hidle => ?_⟩
  simp [hidle] at h

/-! ## The settle waits (R80, R85, R90) -/

/-- In a settle wait `DLY` counts down, whatever the inputs but `rst`. -/
theorem run_wait {s : State} {k : Nat} (hs : s.st ∈ [SeqState.rstWait, .measWait]) (hk : k ≤ s.dly)
    (hnr : NoReset s k) : run k s = .next ((s.setDly (s.dly - k)).ticks k) := by
  refine run_trajectory (f := fun j => (s.setDly (s.dly - j)).ticks j) fun j hj => ?_
  have hrst : ((s.setDly (s.dly - j)).ticks j).sample.rst = false := by rw [State.ticks_sample]; exact hnr j hj
  rw [step_wait_tick hrst hs (by simp; omega), State.ticks_succ]
  rfl

/-- The last step of a settle wait, in which `DLY` is 0. -/
theorem run_wait_settled {s t : State} (hs : s.st ∈ [SeqState.rstWait, .measWait]) (hnr : NoReset s (s.dly + 1))
    (hlast : step ((s.setDly 0).ticks s.dly) = .next t) : run (s.dly + 1) s = .next t := by
  have hrun := run_wait hs le_rfl (noReset_mono hnr (Nat.le_succ _))
  rw [Nat.sub_self] at hrun
  exact (run_add hrun 1).trans (run_one hlast)

section
variable {s : State} (hnr : NoReset s (s.dly + 1))
include hnr

theorem rst_after_wait : ((s.setDly 0).ticks s.dly).sample.rst = false := by
  rw [State.ticks_sample]
  exact hnr _ (Nat.lt_succ_self _)

theorem run_rstWait (hs : s.st = .rstWait) :
    run (s.dly + 1) s = .next (((s.setDly 0).goto .statCmd).ticks (s.dly + 1)) := by
  refine run_wait_settled (by simp [hs]) hnr ?_
  rw [step_rstWait_settled (rst_after_wait hnr) hs rfl, State.ticks_succ]
  rfl

theorem run_measWait (hs : s.st = .measWait) :
    run (s.dly + 1) s = .next ((((s.setDly 0).setRxi 0).goto .frameRd).ticks (s.dly + 1)) := by
  refine run_wait_settled (by simp [hs]) hnr ?_
  rw [step_measWait_settled (rst_after_wait hnr) hs rfl, State.ticks_succ]
  rfl

end

/-- Settles O18: one step of the countdown or its end, and the run of the whole countdown. -/
theorem stepInRstWait : Obligations.StepInRstWait := by
  unfold Obligations.StepInRstWait
  intro s hs
  have hwait : s.st ∈ [SeqState.rstWait, .measWait] := by simp [hs]
  refine ⟨fun hrst => ⟨step_rstWait_settled hrst hs, step_wait_tick hrst hwait⟩, fun hnr => ⟨fun k hk => ?_, ?_⟩,
    validOutputsLow_of_mem (by simp [hs])⟩
  · exact ⟨_, run_wait hwait hk (noReset_mono hnr (by omega)), hs, rfl⟩
  · exact ⟨_, run_rstWait hnr hs, rfl⟩

/-- Settles O23: one step of the countdown or its end, and the run of the whole countdown. -/
theorem stepInMeasWait : Obligations.StepInMeasWait := by
  unfold Obligations.StepInMeasWait
  intro s hs
  have hwait : s.st ∈ [SeqState.rstWait, .measWait] := by simp [hs]
  refine ⟨fun hrst => ⟨step_measWait_settled hrst hs, step_wait_tick hrst hwait⟩, fun hnr => ⟨fun k hk => ?_, ?_⟩,
    validOutputsLow_of_mem (by simp [hs])⟩
  · exact ⟨_, run_wait hwait hk (noReset_mono hnr (by omega)), hs, rfl⟩
  · exact ⟨_, run_measWait hnr hs, rfl, rfl⟩

/-- A settle wait that a command's step has entered: from step 1 on, `DLY` counts down and no valid output is
asserted. -/
theorem settle_after_command {s u : State} {n k : Nat} (hstep : step s = .next u)
    (hu : u.st ∈ [SeqState.rstWait, .measWait]) (hdly : u.dly = n) (hnr : NoReset s (n + 2)) (h1 : 1 ≤ k)
    (hk : k ≤ n + 1) :
    ∃ t, run k s = .next t ∧ t.dly = n + 1 - k ∧ ValidOutputsLow (outputs t) := by
  obtain ⟨j, rfl⟩ := Nat.exists_eq_add_of_le h1
  have hnr' : NoReset u j := noReset_run (noReset_mono hnr (by omega)) (run_one hstep)
  refine ⟨_, (run_add (run_one hstep) j).trans (run_wait hu (by omega) hnr'), ?_, ?_⟩
  · simp only [State.ticks_dly, State.setDly_dly]
    omega
  · exact validOutputsLow_of_mem (List.mem_append_left [SeqState.chkT, .chkH, .conv, .esc, .fault] hu)

/-- Settles O34: the step that ends the command loads `DLY`, and the run of the wait follows. -/
theorem settleWaitsAreExact : Obligations.SettleWaitsAreExact := by
  unfold Obligations.SettleWaitsAreExact
  refine ⟨fun s hs hd hnr => ?_, fun s hs hd hnr => ?_⟩
  · have hstep := step_measCmd (noReset_first hnr) hs hd
    have hnr' := noReset_run (a := 1) (b := Config.measSettleTicks + 1) (noReset_mono hnr (by omega)) (run_one hstep)
    refine ⟨fun k => settle_after_command hstep (by simp) rfl hnr, _,
      (run_succ hstep _).trans (run_measWait hnr' rfl), ?_⟩
    exact ⟨outputs_rdValid_iff.mpr (by simp), rfl⟩
  · have hstep := step_rstCmd (noReset_first hnr) hs hd
    have hnr' := noReset_run (a := 1) (b := Config.resetSettleTicks + 1) (noReset_mono hnr (by omega)) (run_one hstep)
    refine ⟨fun k => settle_after_command hstep (by simp) rfl hnr, _,
      (run_succ hstep _).trans (run_rstWait hnr' rfl), ?_⟩
    refine (outputs_of_commandOut (c := .readStatus) ?_).imp_right And.right
    exact State.commandOut_eq_some_iff.mpr (.inr (.inl ⟨rfl, rfl⟩))

/-! ## The checks and the conversion (R92) -/

/-- Settles O36: up to three steps, along the two checks. -/
theorem cycleResultOfSixBytes : Obligations.CycleResultOfSixBytes := by
  unfold Obligations.CycleResultOfSixBytes
  intro s hs hnr
  have hrst : s.sample.rst = false := noReset_first hnr
  have passed (htemp : s.frame.tempFieldValid = true) :
      step s = .next (s.goto .chkH).tick ∧ NoReset (s.goto .chkH).tick 2 := by
    have hstep := step_chkT_passed hrst hs htemp
    exact ⟨hstep, noReset_run (a := 1) hnr (run_one hstep)⟩
  refine ⟨fun htemp hhum => ?_, fun htemp hhum => ?_, fun htemp => ?_⟩
  · obtain ⟨hchkT, hnr'⟩ := passed (Frame.tempFieldValid_iff.mpr htemp)
    have hchkH := step_chkH_passed (noReset_first hnr') rfl (Frame.humFieldValid_iff.mpr hhum)
    have hconv := step_conv (noReset_first (noReset_run (a := 1) (b := 1) hnr' (run_one hchkH))) rfl
    exact ⟨_, (run_succ hchkT 2).trans ((run_succ hchkH 1).trans (run_one hconv)), rfl, rfl, rfl⟩
  · obtain ⟨hchkT, hnr'⟩ := passed (Frame.tempFieldValid_iff.mpr htemp)
    have hchkH := step_chkH_failed (noReset_first hnr') rfl (mt Frame.humFieldValid_iff.mp hhum)
    exact ⟨_, (run_succ hchkT 1).trans (run_one hchkH), rfl, rfl, rfl⟩
  · have hchkT := step_chkT_failed hrst hs (mt Frame.tempFieldValid_iff.mp htemp)
    exact ⟨_, run_one hchkT, rfl, rfl, rfl⟩

/-! ## The receiver (R91) -/

theorem bytesDelivered_succ (s : State) (start k : Nat) :
    bytesDelivered s start (k + 1) = bytesDelivered s start k ++
      if (s.sampleAt (start + k)).rxValid then [(s.sampleAt (start + k)).rxData] else [] := by
  simp only [bytesDelivered, List.range_succ, List.filterMap_append, List.filterMap_cons, List.filterMap_nil]
  cases (s.sampleAt (start + k)).rxValid <;> rfl

theorem bytesDelivered_length_mono (s : State) (start : Nat) {j k : Nat} (h : j ≤ k) :
    (bytesDelivered s start j).length ≤ (bytesDelivered s start k).length := by
  obtain ⟨d, rfl⟩ := Nat.exists_eq_add_of_le h
  simp [bytesDelivered, List.range_add]

section
variable {s : State} {m : Nat} {bytes : List Byte}

/-- The last byte comes in the last step of the read (R37). -/
theorem ReadTakes.last_byte (h : ReadTakes s 0 (m + 1) bytes) :
    (s.sampleAt m).rxValid = true ∧ bytesDelivered s 0 m ++ [(s.sampleAt m).rxData] = bytes := by
  obtain ⟨-, hall, hlast⟩ := h
  simp only [Nat.zero_add, Nat.add_sub_cancel] at hlast
  rw [bytesDelivered_succ, Nat.zero_add, if_pos hlast] at hall
  exact ⟨hlast, hall⟩

/-- Before the last step of the read a byte is still to come. -/
theorem ReadTakes.length_lt (h : ReadTakes s 0 (m + 1) bytes) {k : Nat} (hk : k ≤ m) :
    (bytesDelivered s 0 k).length < bytes.length := by
  rw [← h.last_byte.2, List.length_append]
  exact Nat.lt_succ_of_le (bytesDelivered_length_mono s 0 hk)

/-- A read state before its last byte: `recv l` is the state in which the bytes l have been received, and the steps
between two bytes are waits. -/
theorem run_receiver {recv : List Byte → State} (hnil : recv [] = s) (hread : ReadTakes s 0 (m + 1) bytes)
    (hnr : NoReset s m) (hst : ∀ l, (recv l).st ∈ [SeqState.statRd, .frameRd])
    (hsamples : ∀ l j, (recv l).sampleAt j = s.sampleAt j)
    (hbyte : ∀ l j, l.length + 1 < bytes.length → ((recv l).ticks j).sample.rst = false →
      ((recv l).ticks j).sample.rxValid = true →
      step ((recv l).ticks j) = .next ((recv (l ++ [((recv l).ticks j).sample.rxData])).ticks (j + 1)))
    {k : Nat} (hk : k ≤ m) : run k s = .next ((recv (bytesDelivered s 0 k)).ticks k) := by
  subst hnil
  refine run_trajectory (f := fun j => (recv (bytesDelivered (recv []) 0 j)).ticks j) fun j hj => ?_
  have hsample : ((recv (bytesDelivered (recv []) 0 j)).ticks j).sample = (recv []).sampleAt j := by
    rw [State.ticks_sample, hsamples]
  have hrst := hnr j (by omega)
  have hnext := bytesDelivered_succ (recv []) 0 j
  have hlen := hread.length_lt (k := j + 1) (by omega)
  rw [Nat.zero_add] at hnext
  rw [hnext] at hlen ⊢
  rw [← hsample] at hlen hrst ⊢
  cases hv : ((recv (bytesDelivered (recv []) 0 j)).ticks j).sample.rxValid with
  | false =>
    rw [step_pending hrst (.inr ⟨hst _, hv⟩), State.ticks_succ]
    simp
  | true =>
    simp only [hv, if_true, List.length_append, List.length_singleton] at hlen ⊢
    exact hbyte _ j hlen hrst hv

end

/-- `FRAME` after the first bytes of a read: each at its index, the other cells as they were (R86). -/
def Frame.received (f : Frame) (l : List Byte) : Frame :=
  ⟨l[0]?.getD f.tempMsb, l[1]?.getD f.tempLsb, l[2]?.getD f.tempCrc,
    l[3]?.getD f.humMsb, l[4]?.getD f.humLsb, l[5]?.getD f.humCrc⟩

theorem Frame.received_bytes (f g : Frame) : f.received g.bytes = g := rfl

/-- One more byte goes to the next cell. -/
theorem Frame.write_received (f : Frame) {l : List Byte} (h : l.length < 6) (b : Byte) :
    (f.received l).write l.length b = some (f.received (l ++ [b])) := by
  match l, h with
  | [], _ | [_], _ | [_, _], _ | [_, _, _], _ | [_, _, _, _], _ | [_, _, _, _, _], _ => rfl
  | _ :: _ :: _ :: _ :: _ :: _ :: _, h => simp at h; omega

/-- `S_FRAME_RD` after the first bytes of the read: they stand in `FRAME`, and `RXI` counts them. -/
def State.frameReceived (s : State) (l : List Byte) : State :=
  (s.setFrame (s.frame.received l)).setRxi (BitVec.ofNat 3 l.length)

/-- `S_STAT_RD` after the first bytes of the read, of which there is at most one before the read ends. -/
def State.statusReceived (s : State) (l : List Byte) : State :=
  (s.setStatus ((l.head?.map (withHighByte s.status)).getD s.status)).setRxi (BitVec.ofNat 3 l.length)

section
variable {s : State} {m : Nat}

theorem State.setRxi_self {i : BitVec 3} (h : s.rxi = i) : s.setRxi i = s := by
  rw [← h]
  rfl

theorem State.frameReceived_nil (h : s.rxi = 0) : s.frameReceived [] = s := State.setRxi_self h

theorem State.statusReceived_nil (h : s.rxi = 0) : s.statusReceived [] = s := State.setRxi_self h

/-- In `S_FRAME_RD`, a byte other than the last one (R86). -/
theorem step_frameReceived (hs : s.st = .frameRd) {l : List Byte} {j : Nat} (hl : l.length + 1 < 6)
    (hrst : ((s.frameReceived l).ticks j).sample.rst = false)
    (hv : ((s.frameReceived l).ticks j).sample.rxValid = true) :
    step ((s.frameReceived l).ticks j) =
      .next ((s.frameReceived (l ++ [((s.frameReceived l).ticks j).sample.rxData])).ticks (j + 1)) := by
  have hrxi : ((s.frameReceived l).ticks j).rxi.toNat = l.length := Nat.mod_eq_of_lt (by omega)
  have h5 : ((s.frameReceived l).ticks j).rxi ≠ 5 := fun h => by
    rw [h] at hrxi
    simp at hrxi
    omega
  have hw := s.frame.write_received (by omega : l.length < 6) ((s.frameReceived l).ticks j).sample.rxData
  rw [← hrxi] at hw
  rw [step_frameRd_byte hrst hs hv hw h5, State.ticks_succ, State.frameReceived, State.frameReceived,
    List.length_append, List.length_singleton, BitVec.ofNat_add]
  rfl

section
variable {f : Frame} (hs : s.st = .frameRd) (hrxi : s.rxi = 0) (hread : ReadTakes s 0 (m + 1) f.bytes)
include hs hrxi hread

theorem run_frameRd_receiving (hnr : NoReset s m) {k : Nat} (hk : k ≤ m) :
    run k s = .next ((s.frameReceived (bytesDelivered s 0 k)).ticks k) :=
  run_receiver (recv := s.frameReceived) (State.frameReceived_nil hrxi) hread hnr
    (fun _ => by simp [State.frameReceived, hs]) (fun _ _ => rfl) (fun _ _ hl => step_frameReceived hs hl) hk

/-- The whole read of a frame: the sixth byte completes it (R86, R91). -/
theorem run_frameRd (hnr : NoReset s (m + 1)) :
    run (m + 1) s =
      .next (((((s.setFrame f).setRxi 5).goto .chkT).record (.busRead devAddr f.bytes)).ticks (m + 1)) := by
  have hrun := run_frameRd_receiving hs hrxi hread (noReset_mono hnr (Nat.le_succ m)) le_rfl
  obtain ⟨hv, hbytes⟩ := hread.last_byte
  generalize bytesDelivered s 0 m = l at hrun hbytes
  have hlen : l.length = 5 := by simpa [Frame.bytes] using congrArg List.length hbytes
  have hsample : ((s.frameReceived l).ticks m).sample = s.sampleAt m := State.ticks_sample _ _
  have hw := s.frame.write_received (l := l) (by omega) (s.sampleAt m).rxData
  rw [hbytes, Frame.received_bytes, hlen, ← hsample] at hw
  have h5 : ((s.frameReceived l).ticks m).rxi = 5 := congrArg (BitVec.ofNat 3) hlen
  rw [← hsample] at hv
  have hrst : ((s.frameReceived l).ticks m).sample.rst = false := by
    rw [hsample]
    exact hnr m (Nat.lt_succ_self m)
  have hlast := step_frameRd_last hrst hs hv hw h5
  rw [run_add hrun 1, run_one hlast, State.ticks_succ, State.frameReceived, hlen]
  rfl

end

section
variable {s0 s1 : Byte} (hs : s.st = .statRd) (hrxi : s.rxi = 0) (hread : ReadTakes s 0 (m + 1) [s0, s1])
include hs hrxi hread

theorem run_statRd_receiving (hnr : NoReset s m) {k : Nat} (hk : k ≤ m) :
    run k s = .next ((s.statusReceived (bytesDelivered s 0 k)).ticks k) := by
  refine run_receiver (recv := s.statusReceived) (State.statusReceived_nil hrxi) hread hnr
    (fun _ => by simp [State.statusReceived, hs]) (fun _ _ => rfl) (fun l j hl hrst hv => ?_) hk
  obtain rfl : l = [] := List.eq_nil_of_length_eq_zero (by simpa using hl)
  rw [step_statRd_high hrst hs hv rfl, State.ticks_succ]
  rfl

/-- The whole status read: the second byte completes it (R82, R91). -/
theorem run_statRd (hnr : NoReset s (m + 1)) :
    run (m + 1) s =
      .next (((((s.setStatus (joinBytes s0 s1)).setRxi 1).goto .idle).record
        (.busRead devAddr [s0, s1])).ticks (m + 1)) := by
  have hrun := run_statRd_receiving hs hrxi hread (noReset_mono hnr (Nat.le_succ m)) le_rfl
  obtain ⟨hv, hbytes⟩ := hread.last_byte
  obtain ⟨hfirst, hsecond⟩ :=
    List.append_inj' (t₁ := [(s.sampleAt m).rxData]) (s₂ := [s0]) (t₂ := [s1]) hbytes rfl
  rw [hfirst] at hrun
  have hsample : ((s.statusReceived [s0]).ticks m).sample = s.sampleAt m := State.ticks_sample _ _
  rw [← hsample] at hv hsecond
  have hrst : ((s.statusReceived [s0]).ticks m).sample.rst = false := by
    rw [hsample]
    exact hnr m (Nat.lt_succ_self m)
  have hhigh : highByte ((s.statusReceived [s0]).ticks m).status = s0 := highByte_withHighByte _ _
  have hlast := step_statRd_low hrst hs hv (show (1 : BitVec 3) ≠ 0 by decide)
  rw [withLowByte, hhigh, List.singleton_inj.mp hsecond] at hlast
  rw [run_add hrun 1, run_one hlast, State.ticks_succ]
  rfl

end

end

/-- Settles O35: the state before the last byte counts the bytes in `RXI`, and the last byte ends the read. -/
theorem receiverStoresBytesInOrder : Obligations.ReceiverStoresBytesInOrder := by
  unfold Obligations.ReceiverStoresBytesInOrder
  refine ⟨fun s b f hs hrxi hnr hread => ?_, fun s b s0 s1 hs hrxi hnr hread => ?_⟩
  · obtain ⟨m, rfl⟩ := Nat.exists_eq_add_of_le' hread.1
    refine ⟨fun k hk => ⟨_, run_frameRd_receiving hs hrxi hread (noReset_mono hnr (Nat.le_succ m))
      (Nat.le_of_lt_succ hk), hs, ?_⟩, _, run_frameRd hs hrxi hread hnr, rfl, rfl, rfl⟩
    have hlen : _ < 6 := hread.length_lt (Nat.le_of_lt_succ hk)
    exact Nat.mod_eq_of_lt (by omega)
  · obtain ⟨m, rfl⟩ := Nat.exists_eq_add_of_le' hread.1
    refine ⟨fun k hk => ⟨_, run_statRd_receiving hs hrxi hread (noReset_mono hnr (Nat.le_succ m))
      (Nat.le_of_lt_succ hk), hs, ?_⟩, _, run_statRd hs hrxi hread hnr, rfl, rfl, rfl⟩
    have hlen : _ < 2 := hread.length_lt (Nat.le_of_lt_succ hk)
    exact Nat.mod_eq_of_lt (by omega)

/-! ## INIT (R78, R96, R142) -/

section
variable {s t : State} {k : Nat} (hr : run k s = .next t)
include hr

/-- What the transport does from step k on is what it does from the start of the run's rest. -/
theorem commandTakes_run {a : Nat} (h : CommandTakes s k a) : CommandTakes t 0 a := by
  obtain ⟨h1, hwait, hdone⟩ := h
  refine ⟨h1, fun j hj => ?_, ?_⟩
  · rw [sampleAt_run hr, Nat.zero_add]
    exact hwait j hj
  · rw [sampleAt_run hr, Nat.zero_add, ← Nat.add_sub_assoc h1]
    exact hdone

theorem readTakes_run {b : Nat} {bytes : List Byte} (h : ReadTakes s k b bytes) : ReadTakes t 0 b bytes := by
  obtain ⟨h1, hall, hlast⟩ := h
  refine ⟨h1, ?_, ?_⟩
  · simpa only [bytesDelivered, sampleAt_run hr, Nat.zero_add] using hall
  · rw [sampleAt_run hr, Nat.zero_add, ← Nat.add_sub_assoc h1]
    exact hlast

end

/-- A run of k steps from s to t that is ready for no request before it comes to t. -/
structure RunsBusy (s : State) (k : Nat) (t : State) : Prop where
  run_eq : run k s = .next t
  busy : ∀ j, j < k → ∃ u, run j s = .next u ∧ (outputs u).reqReady = false

theorem RunsBusy.trans {s t u : State} {a b : Nat} (h : RunsBusy s a t) (h' : RunsBusy t b u) :
    RunsBusy s (a + b) u := by
  refine ⟨(run_add h.run_eq b).trans h'.run_eq, fun j hj => ?_⟩
  by_cases hja : j < a
  · exact h.busy j hja
  · obtain ⟨i, rfl⟩ := Nat.exists_eq_add_of_le (Nat.le_of_not_lt hja)
    obtain ⟨v, hv, hready⟩ := h'.busy i (by omega)
    exact ⟨v, (run_add h.run_eq i).trans hv, hready⟩

/-- A command state from its entry to the step that samples the end of the write. -/
theorem runsBusy_command {s : State} {a : Nat} {follow : State → State}
    (hs : s.st ∈ [SeqState.rstCmd, .statCmd, .measCmd]) (hnr : NoReset s a) (htakes : CommandTakes s 0 a)
    (hend : ∀ j, (s.ticks j).sample.rst = false → (s.ticks j).sample.cmdDone = true →
      step (s.ticks j) = .next ((follow s).ticks (j + 1))) : RunsBusy s a ((follow s).ticks a) := by
  obtain ⟨h1, hwait, hdone⟩ := htakes
  obtain ⟨m, rfl⟩ := Nat.exists_eq_add_of_le' h1
  simp only [Nat.zero_add, Nat.add_sub_cancel, Nat.add_lt_add_iff_right] at hwait hdone
  have hrun {k : Nat} (hk : k ≤ m) : run k s = .next (s.ticks k) :=
    run_pending (noReset_mono hnr (by omega)) (.inl ⟨hs, fun j hj => hwait j (by omega)⟩)
  rw [← State.ticks_sample] at hdone
  have hrst : (s.ticks m).sample.rst = false := by rw [State.ticks_sample]; exact hnr m (Nat.lt_succ_self m)
  refine ⟨(run_add (hrun le_rfl) 1).trans (run_one (hend m hrst hdone)),
    fun j hj => ⟨_, hrun (Nat.le_of_lt_succ hj), ?_⟩⟩
  refine reqReady_eq_false fun hidle => ?_
  rw [show s.st = .idle from hidle] at hs
  simp at hs

theorem runsBusy_rstCmd {s : State} {a : Nat} (hs : s.st = .rstCmd) (hnr : NoReset s a)
    (htakes : CommandTakes s 0 a) :
    RunsBusy s a ((((s.busWrite 0x30A2).setDly Config.resetSettleTicks).goto .rstWait).ticks a) :=
  runsBusy_command (follow := fun s => ((s.busWrite 0x30A2).setDly Config.resetSettleTicks).goto .rstWait)
    (by simp [hs]) hnr htakes fun j hrst hdone => by rw [step_rstCmd hrst hs hdone, State.ticks_succ]; rfl

theorem runsBusy_statCmd {s : State} {a : Nat} (hs : s.st = .statCmd) (hnr : NoReset s a)
    (htakes : CommandTakes s 0 a) :
    RunsBusy s a ((((s.busWrite 0xF32D).setRxi 0).goto .statRd).ticks a) :=
  runsBusy_command (follow := fun s => ((s.busWrite 0xF32D).setRxi 0).goto .statRd)
    (by simp [hs]) hnr htakes fun j hrst hdone => by rw [step_statCmd hrst hs hdone, State.ticks_succ]; rfl

theorem runsBusy_rstWait {s : State} {n : Nat} (hs : s.st = .rstWait) (hdly : s.dly = n) (hnr : NoReset s (n + 1)) :
    RunsBusy s (n + 1) (((s.setDly 0).goto .statCmd).ticks (n + 1)) := by
  subst hdly
  refine ⟨run_rstWait hnr hs, fun j hj =>
    ⟨_, run_wait (by simp [hs]) (Nat.le_of_lt_succ hj) (noReset_mono hnr hj.le), ?_⟩⟩
  exact reqReady_eq_false (by simp [hs])

theorem runsBusy_statRd {s : State} {b : Nat} {s0 s1 : Byte} (hs : s.st = .statRd) (hrxi : s.rxi = 0)
    (hnr : NoReset s b) (hread : ReadTakes s 0 b [s0, s1]) :
    RunsBusy s b
      (((((s.setStatus (joinBytes s0 s1)).setRxi 1).goto .idle).record (.busRead devAddr [s0, s1])).ticks b) := by
  obtain ⟨m, rfl⟩ := Nat.exists_eq_add_of_le' hread.1
  refine ⟨run_statRd hs hrxi hread hnr, fun j hj => ⟨_, run_statRd_receiving hs hrxi hread
    (noReset_mono hnr (Nat.le_succ m)) (Nat.le_of_lt_succ hj), ?_⟩⟩
  exact reqReady_eq_false (by simp [State.statusReceived, hs])

/-- Settles O37: the four states of INIT one after the other. -/
theorem initReachesIdle : Obligations.InitReachesIdle := by
  unfold Obligations.InitReachesIdle
  intro s a1 a2 b s0 s1 hs hext hnr htakes1 htakes2 hread
  have hreset := runsBusy_rstCmd hs (noReset_mono hnr (by omega)) htakes1
  have hwait := hreset.trans (runsBusy_rstWait (n := Config.resetSettleTicks) rfl rfl
    (noReset_run (noReset_mono hnr (by omega)) hreset.run_eq))
  have hstatus := hwait.trans (runsBusy_statCmd rfl (noReset_run (noReset_mono hnr (by omega)) hwait.run_eq)
    (commandTakes_run hwait.run_eq htakes2))
  have hinit := hstatus.trans (runsBusy_statRd rfl rfl (noReset_run hnr hstatus.run_eq)
    (readTakes_run hstatus.run_eq hread))
  refine ⟨⟨_, hinit.run_eq, rfl, rfl, rfl, ?_, ?_⟩, hinit.busy⟩
  · change (SeqState.idle == .idle && s.ext.isNone) = true
    rw [hext]
    rfl
  · change s.log ++ _ ++ _ ++ _ = _
    rw [List.append_assoc, List.append_assoc]
    rfl

/-! ## The history of a run: the one event that may come next -/

theorem isWriteOf_iff {code : Half} {e : Event} :
    isWriteOf code e = true ↔ e = .busWrite devAddr (highByte code) (lowByte code) := beq_iff_eq

/-- The steps of `advance`, one per kind of event: what may cross the boundary in each phase, and the phase after it. -/
inductive Advances : Phase → Event → Phase → Prop
  | resetSent : Advances .start (.busWrite devAddr (highByte 0x30A2) (lowByte 0x30A2)) .resetSent
  | statusSent : Advances .resetSent (.busWrite devAddr (highByte 0xF32D) (lowByte 0xF32D)) .statusSent
  | statusRead (b0 b1 : Byte) : Advances .statusSent (.busRead devAddr [b0, b1]) .ready
  | accepted (op : ReqOp) : Advances .ready (.accepted op) (.pending op)
  | measSent (op : ReqOp) :
      Advances (.pending op) (.busWrite devAddr (highByte 0x2400) (lowByte 0x2400)) (.measuring op)
  | frameRead (op : ReqOp) (f : Frame) : Advances (.measuring op) (.busRead devAddr f.bytes) (.framed op f)
  | responded (op : ReqOp) (f : Frame) : f.valid = true →
      Advances (.framed op f) (.responded op (reading op f)) .ready
  | faulted (op : ReqOp) (f : Frame) : f.valid = false → Advances (.framed op f) (.faulted (faultCodeOf op)) .down

theorem advance_of_advances {p q : Phase} {e : Event} (h : Advances p e q) : advance p e = some q := by
  cases h with
  | resetSent | statusSent | measSent op => rw [advance, if_pos (isWriteOf_iff.mpr rfl)]
  | statusRead b0 b1 | accepted op | frameRead op f => rfl
  | responded op f hvalid => exact if_pos ⟨rfl, hvalid, rfl⟩
  | faulted op f hvalid => exact if_pos ⟨hvalid, rfl⟩

theorem advances_of_advance {p q : Phase} {e : Event} (h : advance p e = some q) : Advances p e q := by
  cases p with
  | start =>
    obtain ⟨he, hq⟩ := Option.ite_none_right_eq_some.mp h
    cases isWriteOf_iff.mp he
    cases hq
    exact .resetSent
  | resetSent =>
    obtain ⟨he, hq⟩ := Option.ite_none_right_eq_some.mp h
    cases isWriteOf_iff.mp he
    cases hq
    exact .statusSent
  | statusSent =>
    simp only [advance] at h
    split at h
    next a b0 b1 =>
      obtain ⟨rfl, hq⟩ := Option.ite_none_right_eq_some.mp h
      cases hq
      exact .statusRead b0 b1
    next => cases h
  | ready =>
    simp only [advance] at h
    split at h
    next op =>
      cases h
      exact .accepted op
    next => cases h
  | pending op =>
    obtain ⟨he, hq⟩ := Option.ite_none_right_eq_some.mp h
    cases isWriteOf_iff.mp he
    cases hq
    exact .measSent op
  | measuring op =>
    simp only [advance] at h
    split at h
    next a b0 b1 b2 b3 b4 b5 =>
      obtain ⟨rfl, hq⟩ := Option.ite_none_right_eq_some.mp h
      cases hq
      exact .frameRead op ⟨b0, b1, b2, b3, b4, b5⟩
    next => cases h
  | framed op f =>
    simp only [advance] at h
    split at h
    next =>
      obtain ⟨⟨rfl, hvalid, rfl⟩, hq⟩ := Option.ite_none_right_eq_some.mp h
      cases hq
      exact .responded _ f hvalid
    next =>
      obtain ⟨⟨hvalid, rfl⟩, hq⟩ := Option.ite_none_right_eq_some.mp h
      cases hq
      exact .faulted op f hvalid
    next => cases h
  | down => cases h

theorem replay_append_one {log : List Event} {e : Event} {q : Phase} :
    replay (log ++ [e]) = some q ↔ ∃ p, replay log = some p ∧ Advances p e q := by
  simp only [replay, List.foldlM_append, Option.bind_eq_bind, Option.bind_eq_some_iff, List.foldlM_cons,
    List.foldlM_nil, Option.pure_def, Option.some.injEq, exists_eq_right]
  exact exists_congr fun p => and_congr_right' ⟨advances_of_advance, advance_of_advances⟩

/-! ## The history invariant, one field at a time -/

section
variable {s u : State}

/-- The response in `S_RESP` carries the reading of the frame that is being answered (R118, R119). -/
theorem HistoryInv.cachedValue_eq (h : HistoryInv s) (hs : s.st = .resp) : s.cachedValue = reading s.reqQ s.frame := by
  obtain ⟨-, htemp, hhum⟩ := h.pair_stored hs
  cases hop : s.reqQ
  · rw [State.cachedValue, hop, reading, htemp]
  · rw [State.cachedValue, hop, reading, hhum]

/-- The conversion's step, whatever the two words: they are variables here, which keeps the kernel from computing them. -/
theorem phase_of_setReading (hs : s.st = .conv) (temp hum : Word) :
    ((s.setReading temp hum).goto .resp).log = s.log ∧ ((s.setReading temp hum).goto .resp).phase = s.phase :=
  ⟨rfl, by simp [State.phase, hs]⟩

/-- An action records nothing and stays in the phase, or records the one event that may come next. -/
theorem Acts.phase_advances (hu : Acts s u) (h : HistoryInv s) :
    (u.log = s.log ∧ u.phase = s.phase) ∨ ∃ e, u.log = s.log ++ [e] ∧ Advances s.phase e u.phase := by
  cases hu
  case slotSent hext _ => cases h.slot_empty.symm.trans hext
  case commandPending | readPending | slotPending | noRequest | afterFault | resetTick | measTick =>
    exact .inl ⟨rfl, rfl⟩
  case resetSettled hs _ | measSettled hs _ | tempPassed hs _ | tempFailed hs _ | humPassed hs _ | humFailed hs _ |
      statusHigh hs _ _ | byteStored hs _ _ _ =>
    exact .inl ⟨rfl, by simp [State.phase, hs]⟩
  case converted hs => exact .inl (phase_of_setReading hs _ _)
  case resetSent hs _ => exact .inr ⟨_, rfl, by rw [State.phase, hs]; exact .resetSent⟩
  case statusSent hs _ => exact .inr ⟨_, rfl, by rw [State.phase, hs]; exact .statusSent⟩
  case statusLow hs _ _ => exact .inr ⟨_, rfl, by rw [State.phase, hs]; exact .statusRead _ _⟩
  case accepted hs _ _ => exact .inr ⟨_, rfl, by rw [State.phase, hs]; exact .accepted _⟩
  case measSent hs _ => exact .inr ⟨_, rfl, by rw [State.phase, hs]; exact .measSent _⟩
  case frameStored hs _ _ _ => exact .inr ⟨_, rfl, by rw [State.phase, hs]; exact .frameRead _ _⟩
  case responded hs =>
    refine .inr ⟨_, rfl, ?_⟩
    rw [State.phase, hs, h.cachedValue_eq hs]
    exact .responded _ _ (h.pair_stored hs).1
  case escalated hs => exact .inr ⟨_, rfl, by rw [State.phase, hs]; exact .faulted _ _ (h.check_failed hs)⟩

theorem Acts.log_is_run (hu : Acts s u) (h : HistoryInv s) : replay u.log = some u.phase := by
  rcases hu.phase_advances h with ⟨hlog, hphase⟩ | ⟨e, hlog, hadv⟩
  · rw [hlog, hphase, h.log_is_run]
  · rw [hlog]
    exact replay_append_one.mpr ⟨_, h.log_is_run, hadv⟩

/-- No action fills the integrator's slot. -/
theorem Acts.ext_eq_none (hu : Acts s u) (hext : s.ext = none) : u.ext = none := by
  cases hu
  case slotSent => rfl
  case converted => exact (State.goto_ext _ _).trans ((State.setReading_ext _ _ _).trans hext)
  all_goals exact hext

/-- `S_CHK_H` is entered only when the temperature field passed (R87, R88). -/
theorem Acts.temp_checked (hu : Acts s u) (hst : u.st = .chkH) : u.frame.tempFieldValid = true := by
  cases hu
  case tempPassed hvalid => exact hvalid
  case converted => cases (State.goto_st _ _).symm.trans hst
  all_goals simp_all [raiseFault]

/-- `S_CONV` is entered only when the second field passed after the first (R88, R101). -/
theorem Acts.both_checked (hu : Acts s u) (h : HistoryInv s) (hst : u.st = .conv) : u.frame.valid = true := by
  obtain ⟨hs, hhum, hframe⟩ := hu.into_conv hst
  rw [hframe, Frame.valid, h.temp_checked hs, hhum]
  rfl

/-- `S_RESP` is entered only from `S_CONV`, in which both values of the valid frame are stored (R30(b)). -/
theorem Acts.pair_stored (hu : Acts s u) (h : HistoryInv s) (hst : u.st = .resp) :
    u.frame.valid = true ∧ u.tempOut = convT u.frame.tword ∧ u.humOut = convH u.frame.hword := by
  cases hu
  case converted hs =>
    rw [State.goto_frame, State.setReading_frame]
    exact ⟨h.both_checked hs, pair_of_setReading _ _ _⟩
  all_goals simp_all [raiseFault]

/-- `S_ESC` is entered only from a failed check (R87, R88). -/
theorem Acts.check_failed (hu : Acts s u) (hst : u.st = .esc) : u.frame.valid = false := by
  cases hu
  case tempFailed hfail => simp [Frame.valid, hfail]
  case humFailed hfail => simp [Frame.valid, hfail]
  case converted => cases (State.goto_st _ _).symm.trans hst
  all_goals simp_all [raiseFault]

/-- Every action keeps the history invariant. -/
theorem Acts.historyInv (hu : Acts s u) (h : HistoryInv s) : HistoryInv u :=
  ⟨hu.ext_eq_none h.slot_empty, hu.log_is_run h, hu.temp_checked, hu.both_checked h, hu.pair_stored h,
    hu.check_failed⟩

end

/-- The clock's tick writes no register. -/
theorem HistoryInv.tick {s : State} (h : HistoryInv s) : HistoryInv s.tick :=
  ⟨h.slot_empty, h.log_is_run, h.temp_checked, h.both_checked, h.pair_stored, h.check_failed⟩

/-- A reset step starts a run without a history. -/
theorem historyInv_resetStep (s : State) : HistoryInv (resetStep s) := by
  have hst : (resetStep s).st = .rstCmd := rfl
  exact
    { slot_empty := rfl
      log_is_run := rfl
      temp_checked := by simp [hst]
      both_checked := by simp [hst]
      pair_stored := by simp [hst]
      check_failed := by simp [hst] }

/-- Settles O44: a reset step starts a new history, and every other step is an action that keeps each field of the
invariant. -/
theorem historyInvariantKept : Obligations.HistoryInvariantKept := by
  unfold Obligations.HistoryInvariantKept
  intro s t h hstep
  rcases step_cases hstep with ⟨-, rfl⟩ | ⟨-, u, hu, rfl⟩
  · exact historyInv_resetStep s
  · exact (hu.historyInv h).tick

/-! ## The bus trace of a run -/

/-- n measurements on the bus (R95). -/
def measurements (n : Nat) : List BusOp := (List.replicate n [BusOp.w 0x2400, BusOp.r 6]).flatten

theorem measurements_succ (n : Nat) : measurements (n + 1) = measurements n ++ [.w 0x2400, .r 6] := by
  simp [measurements, List.replicate_succ']

/-- The bus transactions up to a phase, with n requests answered before (R95). -/
def busTrace (n : Nat) : Phase → List BusOp
  | .start => []
  | .resetSent => [.w 0x30A2]
  | .statusSent => [.w 0x30A2, .w 0xF32D]
  | .ready | .pending _ | .down => [.w 0x30A2, .w 0xF32D, .r 2] ++ measurements n
  | .measuring _ => [.w 0x30A2, .w 0xF32D, .r 2] ++ measurements n ++ [.w 0x2400]
  | .framed _ _ => [.w 0x30A2, .w 0xF32D, .r 2] ++ measurements (n + 1)

theorem busTrace_isPrefix (n : Nat) (p : Phase) :
    busTrace n p <+: [.w 0x30A2, .w 0xF32D, .r 2] ++ measurements (n + 1) := by
  rw [measurements_succ]
  cases p with
  | start => exact List.nil_prefix
  | resetSent => exact ⟨.w 0xF32D :: .r 2 :: _, rfl⟩
  | statusSent => exact ⟨.r 2 :: _, rfl⟩
  | ready | pending op | down => exact ⟨[.w 0x2400, .r 6], List.append_assoc ..⟩
  | measuring op => exact ⟨[.r 6], by simp [busTrace]⟩
  | framed op f => rw [busTrace, measurements_succ]

/-- The bus transaction of a command's write is W of its code (R95). -/
theorem busOp_busWrite (code : Half) :
    (Event.busWrite devAddr (highByte code) (lowByte code)).busOp = some (.w code) :=
  congrArg (fun c => some (BusOp.w c)) (append_commandBytes code)

/-- An event that may come next is on the bus where the trace goes on, and nowhere else. -/
theorem busTrace_advances {p q : Phase} {e : Event} (h : Advances p e q) (n : Nat) :
    ∃ m, busTrace n p ++ e.busOp.toList = busTrace m q := by
  cases h with
  | resetSent => exact ⟨n, by rw [busOp_busWrite]; rfl⟩
  | statusSent => exact ⟨n, by rw [busOp_busWrite]; rfl⟩
  | measSent op => exact ⟨n, by rw [busOp_busWrite]; rfl⟩
  | statusRead b0 b1 => exact ⟨0, rfl⟩
  | accepted op => exact ⟨n, List.append_nil _⟩
  | frameRead op f => exact ⟨n, by simp [busTrace, measurements_succ, Event.busOp, devAddr, Frame.bytes]⟩
  | responded op f => exact ⟨n + 1, List.append_nil _⟩
  | faulted op f => exact ⟨n + 1, List.append_nil _⟩

/-- Every bus transaction that may come next is with the device (R41, R76). -/
theorem Advances.busOp_isSome {p q : Phase} {e : Event} (h : Advances p e q) (he : e.isBus = true) :
    e.busOp.isSome = true := by
  cases h with
  | resetSent | statusSent | measSent op | statusRead b0 b1 | frameRead op f => rfl
  | accepted op | responded op f | faulted op f => cases he

/-- The bus transactions of a log that replays to p are the trace of p. -/
theorem busTrace_of_replay {log : List Event} {p : Phase} (h : replay log = some p) :
    (∃ n, log.filterMap Event.busOp = busTrace n p) ∧ ∀ e ∈ log, e.isBus = true → e.busOp.isSome = true := by
  induction log using List.reverseRecOn generalizing p with
  | nil => cases h; exact ⟨⟨0, rfl⟩, by simp⟩
  | append_singleton log e ih =>
    obtain ⟨q, hq, hadv⟩ := replay_append_one.mp h
    obtain ⟨⟨n, hn⟩, hall⟩ := ih hq
    obtain ⟨m, hm⟩ := busTrace_advances hadv n
    refine ⟨⟨m, ?_⟩, fun x hx => ?_⟩
    · rw [List.filterMap_append, hn, ← hm, List.filterMap_cons]
      cases e.busOp <;> rfl
    · rcases List.mem_append.mp hx with hx | hx
      · exact hall x hx
      · rw [List.mem_singleton.mp hx]
        exact hadv.busOp_isSome

/-- Settles O45: the log of a run replays, and the trace of every phase is a beginning of INIT's three transactions and
measurements. -/
theorem busTraceIsPrefix : Obligations.BusTraceIsPrefix := by
  unfold Obligations.BusTraceIsPrefix
  intro s h
  obtain ⟨⟨n, hn⟩, hall⟩ := busTrace_of_replay h.log_is_run
  exact ⟨⟨n + 1, hn ▸ busTrace_isPrefix n s.phase⟩, hall⟩

end Sys2Proof.Machine

/-! # Proofs: the checksum

The bitwise algorithm and the byte table (R97 to R99), the laws of the checksum (R102), and what the validation detects
(R103, R104). A byte stands for a polynomial over two elements, and a round for the multiplication by x modulo
x^8 + x^5 + x^4 + 1 (R98): so a round is linear and injective, keeps the parity of the weight, and takes the syndrome of
an error pattern to that of the pattern shifted by one bit. -/

namespace Sys2Proof.Machine

/-! ## One round -/

theorem crcRound_of_msb {x : Byte} (h : x.msb = true) : crcRound x = x <<< 1 ^^^ crcPoly := if_pos h

theorem crcRound_of_not_msb {x : Byte} (h : x.msb = false) : crcRound x = x <<< 1 := by simp [crcRound, h]

theorem shiftLeft_one_eq_ofNat (x : Byte) : x <<< 1 = BitVec.ofNat 8 (x.toNat * 2 % 256) := by
  apply BitVec.eq_of_toNat_eq
  rw [BitVec.toNat_shiftLeft, BitVec.toNat_ofNat, Nat.shiftLeft_eq]
  omega

/-- The bit a byte loses when it is shifted left, as the byte it is carried into. -/
def carry (x : Byte) : Byte := if x.msb then 1 else 0

theorem carry_xor (x y : Byte) : carry (x ^^^ y) = carry x ^^^ carry y := by
  simp only [carry, BitVec.msb_xor]
  cases x.msb <;> cases y.msb <;> rfl

/-- A round folds the bit that is shifted out back in, as eight rounds of 1 (R98). -/
theorem crcRound_eq_shift_xor (x : Byte) : crcRound x = x <<< 1 ^^^ crcT (carry x) := by
  unfold crcRound carry
  cases x.msb
  · exact BitVec.xor_zero.symm
  · rfl

theorem xor_xor_xor_comm (a b c d : Byte) : a ^^^ b ^^^ (c ^^^ d) = a ^^^ c ^^^ (b ^^^ d) := by ac_rfl

/-- A round is linear: so are the shift and the choice of what is folded in. -/
theorem crcRound_xor (x y : Byte) : crcRound (x ^^^ y) = crcRound x ^^^ crcRound y := by
  have hfold : crcT (carry x ^^^ carry y) = crcT (carry x) ^^^ crcT (carry y) := by
    unfold carry
    cases x.msb <;> cases y.msb <;> rfl
  rw [crcRound_eq_shift_xor, carry_xor, hfold, BitVec.shiftLeft_xor_distrib, xor_xor_xor_comm,
    ← crcRound_eq_shift_xor, ← crcRound_eq_shift_xor]

/-- A round takes no other byte to 0: the polynomial has its bit 0 set, which no shifted byte has. -/
theorem eq_zero_of_crcRound_eq_zero {x : Byte} (h : crcRound x = 0) : x = 0 := by
  cases hx : x.msb with
  | true =>
    have hbit : (x <<< 1 ^^^ crcPoly).getLsbD 0 = true := by simp [crcPoly]
    rw [← crcRound_of_msb hx, h] at hbit
    cases hbit
  | false =>
    rw [crcRound_of_not_msb hx] at h
    rw [BitVec.msb_eq_false_iff_two_mul_lt] at hx
    bv_omega

/-! ## Any number of rounds -/

theorem crcRounds_xor (n : Nat) (x y : Byte) : crcRounds n (x ^^^ y) = crcRounds n x ^^^ crcRounds n y := by
  induction n generalizing x y with
  | zero => rfl
  | succ n ih => rw [crcRounds, crcRound_xor, ih, crcRounds, crcRounds]

theorem crcRounds_crcRound (n : Nat) (x : Byte) : crcRounds n (crcRound x) = crcRound (crcRounds n x) := by
  induction n generalizing x with
  | zero => rfl
  | succ n ih => exact ih (crcRound x)

theorem eq_zero_of_crcRounds_eq_zero {n : Nat} {x : Byte} (h : crcRounds n x = 0) : x = 0 := by
  induction n generalizing x with
  | zero => exact h
  | succ n ih => exact eq_zero_of_crcRound_eq_zero (ih h)

theorem crcT_xor (x y : Byte) : crcT (x ^^^ y) = crcT x ^^^ crcT y := crcRounds_xor 8 x y

theorem crcT_crcRound (x : Byte) : crcT (crcRound x) = crcRound (crcT x) := crcRounds_crcRound 8 x

@[simp] theorem crcT_zero : crcT 0#8 = 0#8 := rfl

theorem crcT_eq_zero_iff {x : Byte} : crcT x = 0 ↔ x = 0 :=
  ⟨eq_zero_of_crcRounds_eq_zero, fun h => (congrArg crcT h).trans crcT_zero⟩

/-- T is a bijection: it is linear and takes only 0 to 0, so it is injective, and there are finitely many bytes. -/
theorem crcT_bijective : Function.Bijective crcT := by
  refine Finite.injective_iff_bijective.mp fun x y h => ?_
  have hdiff : crcT (x ^^^ y) = 0 := (crcT_xor x y).trans (BitVec.xor_eq_zero_iff.mpr h)
  exact BitVec.xor_eq_zero_iff.mp (crcT_eq_zero_iff.mp hdiff)

/-! ## The checksum of a list of bytes -/

theorem crc8_append_byte (data : List Byte) (b : Byte) : crc8 (data ++ [b]) = crcT (crc8 data ^^^ b) :=
  List.foldl_append

theorem crc8_pair (d0 d1 : Byte) : crc8 [d0, d1] = crcT (crcT (0xFF ^^^ d0) ^^^ d1) := rfl

/-- Settles O52: a list is folded byte by byte, and doubling modulo 256 is the shift of a round. -/
theorem checksumAlgorithm : Obligations.ChecksumAlgorithm := by
  unfold Obligations.ChecksumAlgorithm
  refine ⟨rfl, crc8_append_byte, fun acc h => ?_, fun acc h => ?_⟩
  · have hmsb : acc.msb = true := BitVec.msb_eq_true_iff_two_mul_ge.mpr (by omega)
    rw [crcRound_of_msb hmsb, shiftLeft_one_eq_ofNat, crcPoly]
  · have hmsb : acc.msb = false := BitVec.msb_eq_false_iff_two_mul_lt.mpr (by omega)
    rw [crcRound_of_not_msb hmsb, shiftLeft_one_eq_ofNat]

/-- The printed table of R99, entry by entry. -/
theorem crcTable_eq_crcT : ∀ x : Byte, crcTable x = crcT x := by decide +kernel

/-- Settles O53: the printed table is T, which the checksum looks up once for each byte. -/
theorem checksumTable : Obligations.ChecksumTable := by
  unfold Obligations.ChecksumTable
  refine ⟨crcTable_eq_crcT, fun data b => ?_, fun b0 b1 => ?_⟩
  · rw [crcTable_eq_crcT, crc8_append_byte]
  · rw [crcTable_eq_crcT, crcTable_eq_crcT, crc8_pair]

/-! ## The laws of the checksum -/

theorem xor_bijective (a : Byte) : Function.Bijective (a ^^^ ·) :=
  Function.Involutive.bijective fun x => by rw [← BitVec.xor_assoc, BitVec.xor_self, BitVec.zero_xor]

/-- The residue (R102(d)): one more byte brings the checksum to 0 exactly when it is the checksum so far. -/
theorem crc8_append_eq_zero_iff (data : List Byte) (c : Byte) : crc8 (data ++ [c]) = 0 ↔ crc8 data = c := by
  rw [crc8_append_byte, crcT_eq_zero_iff]
  exact BitVec.xor_eq_zero_iff

/-- The difference of two checksums is independent of the inputs (R102(e)): T is linear, so the errors part from the
data in each of the two look-ups. -/
theorem crc8_pair_xor (d0 d1 e0 e1 : Byte) :
    crc8 [d0 ^^^ e0, d1 ^^^ e1] = crc8 [d0, d1] ^^^ crcT (crcT e0 ^^^ e1) := by
  rw [crc8_pair, crc8_pair, ← crcT_xor, ← xor_xor_xor_comm, ← crcT_xor, BitVec.xor_assoc]

/-- Settles O54: all five laws come from T being linear and a bijection. -/
theorem checksumLaws : Obligations.ChecksumLaws := by
  unfold Obligations.ChecksumLaws
  refine ⟨crcT_xor, crcT_bijective, fun d0 => ?_, fun d0 d1 c => ?_, crc8_pair_xor⟩
  · exact crcT_bijective.comp (xor_bijective (crcT (0xFF ^^^ d0)))
  · exact (crc8_append_eq_zero_iff [d0, d1] c).symm

/-! ## Changed fields -/

theorem fieldValid_iff {d0 d1 c : Byte} : fieldValid d0 d1 c = true ↔ crc8 [d0, d1] = c := beq_iff_eq

/-- A changed field differs from its checksum by the syndrome of the change. -/
theorem fieldValid_xor_iff {d0 d1 c e0 e1 e2 : Byte} (h : fieldValid d0 d1 c = true) :
    fieldValid (d0 ^^^ e0) (d1 ^^^ e1) (c ^^^ e2) = true ↔ syndrome e0 e1 e2 = 0 := by
  rw [fieldValid_iff, crc8_pair_xor, fieldValid_iff.mp h, BitVec.xor_right_inj]
  exact BitVec.xor_eq_zero_iff.symm

/-! ## Patterns of odd weight -/

theorem countP_xor_parity {α : Type} (p q : α → Bool) (l : List α) :
    l.countP (fun a => p a ^^ q a) % 2 = (l.countP p + l.countP q) % 2 := by
  induction l with
  | nil => rfl
  | cons a l ih =>
    have hbit : (if p a ^^ q a then 1 else 0) % 2 = ((if p a then 1 else 0) + if q a then 1 else 0) % 2 := by
      cases p a <;> cases q a <;> rfl
    simp only [List.countP_cons]
    omega

theorem weight_xor_parity (x y : Byte) : weight (x ^^^ y) % 2 = (weight x + weight y) % 2 := by
  simp only [weight, BitVec.getLsbD_xor]
  exact countP_xor_parity x.getLsbD y.getLsbD (List.range 8)

/-- The polynomial has an even number of terms, x^8 among them: a round that drops bit 7 flips three others. -/
theorem weight_crcRound_parity : ∀ x : Byte, weight (crcRound x) % 2 = weight x % 2 := by decide +kernel

theorem weight_crcRounds_parity (n : Nat) (x : Byte) : weight (crcRounds n x) % 2 = weight x % 2 := by
  induction n generalizing x with
  | zero => rfl
  | succ n ih => exact (ih (crcRound x)).trans (weight_crcRound_parity x)

/-- The syndrome has the parity of the pattern. -/
theorem weight_syndrome_parity (e0 e1 e2 : Byte) :
    weight (syndrome e0 e1 e2) % 2 = (weight e0 + weight e1 + weight e2) % 2 := by
  have h2 := weight_xor_parity (crcT (crcT e0 ^^^ e1)) e2
  have hT1 : weight (crcT (crcT e0 ^^^ e1)) % 2 = _ := weight_crcRounds_parity 8 (crcT e0 ^^^ e1)
  have h1 := weight_xor_parity (crcT e0) e1
  have hT0 : weight (crcT e0) % 2 = _ := weight_crcRounds_parity 8 e0
  rw [syndrome]
  omega

theorem syndrome_ne_zero_of_odd_weight {e0 e1 e2 : Byte} (h : (weight e0 + weight e1 + weight e2) % 2 = 1) :
    syndrome e0 e1 e2 ≠ 0 := by
  intro hzero
  rw [← weight_syndrome_parity, hzero] at h
  cases h

/-! ## Patterns within eight consecutive positions -/

/-- The syndrome of an error pattern given as one 24-bit word, byte 0 the most significant. -/
def wordSyndrome (v : BitVec 24) : Byte := syndrome (v.extractLsb' 16 8) (v.extractLsb' 8 8) (v.extractLsb' 0 8)

/-- Shifting a pattern by one bit, byte by byte, is a round of its syndrome: T takes each carried bit to what the round
of the byte below folds in, and the two cancel. -/
theorem syndrome_shifted {e0 e1 e2 : Byte} (h : e0.msb = false) :
    syndrome (e0 <<< 1 ^^^ carry e1) (e1 <<< 1 ^^^ carry e2) (e2 <<< 1) = crcRound (syndrome e0 e1 e2) := by
  have hcancel (a b t : Byte) : a ^^^ t ^^^ (b ^^^ t) = a ^^^ b := by
    rw [xor_xor_xor_comm, BitVec.xor_self, BitVec.xor_zero]
  have hshift (x : Byte) : x <<< 1 = crcRound x ^^^ crcT (carry x) := by
    rw [crcRound_eq_shift_xor, BitVec.xor_assoc, BitVec.xor_self, BitVec.xor_zero]
  have hinner : crcT (e0 <<< 1 ^^^ carry e1) ^^^ (e1 <<< 1 ^^^ carry e2) = crcRound (crcT e0 ^^^ e1) ^^^ carry e2 := by
    rw [← crcRound_of_not_msb h, crcT_xor, crcT_crcRound, hshift e1, crcRound_xor, ← BitVec.xor_assoc, hcancel]
  rw [syndrome, hinner, crcT_xor, crcT_crcRound, hshift e2, hcancel, ← crcRound_xor, syndrome]

theorem getLsbD_carry (x : Byte) (j : Nat) : (carry x).getLsbD j = (decide (j = 0) && x.getLsbD 7) := by
  rw [carry, BitVec.msb_eq_getLsbD_last]
  cases x.getLsbD 7 <;> simp

theorem extractLsb'_shiftLeft_one (v : BitVec 24) {i : Nat} (hi : i ≤ 8) :
    (v <<< 1).extractLsb' (i + 8) 8 = v.extractLsb' (i + 8) 8 <<< 1 ^^^ carry (v.extractLsb' i 8) := by
  apply BitVec.eq_of_getLsbD_eq
  intro j hj
  simp only [BitVec.getLsbD_xor, getLsbD_carry, BitVec.getLsbD_extractLsb', BitVec.getLsbD_shiftLeft]
  cases j with
  | zero => simp [show i + 8 < 24 by omega]
  | succ j => simp [show j < 8 by omega, show i + 8 + j + 1 < 24 by omega, hj, ← Nat.add_assoc]

theorem wordSyndrome_shiftLeft_one {v : BitVec 24} (h : v.msb = false) :
    wordSyndrome (v <<< 1) = crcRound (wordSyndrome v) := by
  have hlow : (v <<< 1).extractLsb' 0 8 = v.extractLsb' 0 8 <<< 1 := by
    apply BitVec.eq_of_getLsbD_eq
    intro j hj
    simp only [BitVec.getLsbD_extractLsb', BitVec.getLsbD_shiftLeft, Nat.zero_add]
    simp [hj, show j < 24 by omega, show j - 1 < 8 by omega]
  rw [wordSyndrome, extractLsb'_shiftLeft_one v (i := 8) (by omega), extractLsb'_shiftLeft_one v (i := 0) (by omega),
    hlow]
  refine syndrome_shifted ?_
  simpa [BitVec.msb_eq_getLsbD_last] using h

theorem extractLsb'_setWidth_eq_zero (p : Byte) {i : Nat} (hi : 8 ≤ i) : (p.setWidth 24).extractLsb' i 8 = 0 := by
  apply BitVec.eq_of_getLsbD_eq
  intro j hj
  rw [BitVec.getLsbD_extractLsb', BitVec.getLsbD_setWidth, BitVec.getLsbD_of_ge p _ (by omega)]
  simp

theorem wordSyndrome_setWidth (p : Byte) : wordSyndrome (p.setWidth 24) = p := by
  have hlow : (p.setWidth 24).extractLsb' 0 8 = p := by
    rw [← BitVec.setWidth_eq_extractLsb' (by omega), BitVec.setWidth_setWidth_of_le _ (by omega), BitVec.setWidth_eq]
  rw [wordSyndrome, extractLsb'_setWidth_eq_zero p (by omega), extractLsb'_setWidth_eq_zero p le_rfl, hlow]
  simp [syndrome]

/-- As long as no bit leaves the 24, a byte k positions up has k rounds of the byte as its syndrome. -/
theorem wordSyndrome_shiftLeft (p : Byte) {k : Nat} (hk : k ≤ 16) :
    wordSyndrome (p.setWidth 24 <<< k) = crcRounds k p := by
  induction k with
  | zero => rw [BitVec.shiftLeft_zero, wordSyndrome_setWidth, crcRounds]
  | succ k ih =>
    have hmsb : (p.setWidth 24 <<< k).msb = false := by
      rw [BitVec.msb_eq_getLsbD_last, BitVec.getLsbD_shiftLeft, BitVec.getLsbD_setWidth,
        BitVec.getLsbD_of_ge p _ (by omega)]
      simp
    rw [BitVec.shiftLeft_add, wordSyndrome_shiftLeft_one hmsb, ih (by omega), ← crcRounds_crcRound, crcRounds]

theorem wordSyndrome_burst_ne_zero {p : Byte} {k : Nat} (hp : p ≠ 0) (hk : k ≤ 16) :
    wordSyndrome (p.setWidth 24 <<< k) ≠ 0 := by
  rw [wordSyndrome_shiftLeft p hk]
  exact mt eq_zero_of_crcRounds_eq_zero hp

/-- Settles O55: the syndrome keeps the parity of a pattern, and that of eight consecutive positions is a number of
rounds of the byte in them, which take only 0 to 0. -/
theorem errorsDetected : Obligations.ErrorsDetected := by
  unfold Obligations.ErrorsDetected
  exact ⟨fun _ _ _ _ _ _ => fieldValid_xor_iff, fun _ _ _ => syndrome_ne_zero_of_odd_weight,
    fun _ _ => wordSyndrome_burst_ne_zero⟩

/-! ## A stuck bus -/

theorem crc8_all_zeros : crc8 [0x00, 0x00] = 0x81 := by decide +kernel

theorem crc8_all_ones : crc8 [0xFF, 0xFF] = 0xAC := by decide +kernel

/-- Settles O56: neither checksum is the third byte of its frame, so the check of R87 fails. -/
theorem stuckBusFails : Obligations.StuckBusFails := by
  unfold Obligations.StuckBusFails
  refine ⟨crc8_all_zeros, crc8_all_ones, fun s hrst hs hframe => (stepInChkT s hrst hs).2 ?_⟩
  rcases hframe with hlow | hhigh
  · rw [hlow, crc8_all_zeros]
    decide
  · rw [hhigh, crc8_all_ones]
    decide

end Sys2Proof.Machine

/-! # Proofs: the converter

One fact about the rounded scaling carries the family: times 65535 it is within 32767 of the exact product (R109). -/

namespace Sys2Proof.Machine

/-! ## The formulas -/

/-- Settles O57: the results fit their 32 bits, so the narrowed values are those of the unbounded pseudocode. -/
theorem conversionFormulas : Obligations.ConversionFormulas := by
  unfold Obligations.ConversionFormulas
  exact ⟨toInt_convT, toNat_convH⟩

/-! ## The error of the rounding -/

/-- The quotient of `scaleRound` with its remainder, as bounds (R109). -/
theorem scaleRound_bounds (span : Nat) (w : Half) :
    65535 * scaleRound span w ≤ w.toNat * (span * outScale) + 32767 ∧
      w.toNat * (span * outScale) ≤ 65535 * scaleRound span w + 32767 := by
  have hdiv : wordMax * scaleRound span w + (w.toNat * (span * outScale) + 32767) % wordMax =
      w.toNat * (span * outScale) + 32767 := Nat.div_add_mod _ _
  have hmod : (w.toNat * (span * outScale) + 32767) % wordMax < wordMax := Nat.mod_lt _ (by decide)
  rw [wordMax] at hdiv hmod
  omega

theorem scaleRound_tSpan_bounds (w : Half) :
    65535 * scaleRound tSpan w ≤ w.toNat * 175000 + 32767 ∧ w.toNat * 175000 ≤ 65535 * scaleRound tSpan w + 32767 :=
  scaleRound_bounds tSpan w

theorem scaleRound_hSpan_bounds (w : Half) :
    65535 * scaleRound hSpan w ≤ w.toNat * 100000 + 32767 ∧ w.toNat * 100000 ≤ 65535 * scaleRound hSpan w + 32767 :=
  scaleRound_bounds hSpan w

/-! ## Monotonicity, where a step of the word is worth at least one output unit -/

section
variable {span : Nat} (hspan : wordMax ≤ span * outScale)
include hspan

/-- The next word adds the whole divisor to the dividend, so one to the quotient (R114). -/
theorem scaleRound_lt_of_lt {v w : Half} (h : v.toNat < w.toNat) : scaleRound span v < scaleRound span w := by
  have hprod : v.toNat * (span * outScale) + wordMax ≤ w.toNat * (span * outScale) :=
    calc v.toNat * (span * outScale) + wordMax
        ≤ v.toNat * (span * outScale) + span * outScale := Nat.add_le_add_left hspan _
      _ = (v.toNat + 1) * (span * outScale) := (Nat.succ_mul _ _).symm
      _ ≤ w.toNat * (span * outScale) := Nat.mul_le_mul_right _ h
  unfold scaleRound
  rw [← Nat.succ_le_iff, Nat.succ_eq_add_one, ← Nat.add_div_right _ (by decide)]
  exact Nat.div_le_div_right (by omega)

theorem scaleRound_injective : Function.Injective (scaleRound span) := by
  intro v w heq
  rcases Nat.lt_trichotomy v.toNat w.toNat with hlt | htoNat | hgt
  · exact absurd heq (scaleRound_lt_of_lt hspan hlt).ne
  · exact BitVec.eq_of_toNat_eq htoNat
  · exact absurd heq (scaleRound_lt_of_lt hspan hgt).ne'

theorem scaleRound_eq_zero_iff (w : Half) : scaleRound span w = 0 ↔ w = 0 := by
  have hzero : scaleRound span 0 = 0 := by simp [scaleRound, wordMax]
  rw [← hzero, (scaleRound_injective hspan).eq_iff]

theorem scaleRound_eq_span_iff (w : Half) : scaleRound span w = span * outScale ↔ w = 0xFFFF := by
  have hones : scaleRound span 0xFFFF = span * outScale := by
    obtain ⟨hle, hge⟩ := scaleRound_bounds span 0xFFFF
    rw [show (0xFFFF : Half).toNat = 65535 from rfl] at hle hge
    omega
  rw [← hones, (scaleRound_injective hspan).eq_iff]

end

theorem wordMax_le_tSpan : wordMax ≤ tSpan * outScale := by decide

theorem wordMax_le_hSpan : wordMax ≤ hSpan * outScale := by decide

/-! ## Accuracy and range -/

theorem convT_error (w : Half) :
    |65535 * (convT w).toInt - (1000 * 175 * (w.toNat : Int) - 1000 * 45 * 65535)| ≤ 32767 := by
  have hround := scaleRound_tSpan_bounds w
  rw [toInt_convT, abs_le]
  omega

theorem convH_error (w : Half) : |65535 * ((convH w).toNat : Int) - 1000 * 100 * (w.toNat : Int)| ≤ 32767 := by
  have hround := scaleRound_hSpan_bounds w
  rw [toNat_convH, abs_le]
  omega

theorem conversion_range (w : Half) :
    -45000 ≤ (convT w).toInt ∧ (convT w).toInt ≤ 130000 ∧ (convH w).toNat ≤ 100000 := by
  have htle : scaleRound tSpan w ≤ 175000 := scaleRound_le tSpan w
  have hhle : scaleRound hSpan w ≤ 100000 := scaleRound_le hSpan w
  rw [toInt_convT, toNat_convH]
  omega

theorem convT_eq_min_iff (w : Half) : (convT w).toInt = -45000 ↔ w = 0 := by
  rw [← scaleRound_eq_zero_iff wordMax_le_tSpan, toInt_convT]
  omega

theorem convT_eq_max_iff (w : Half) : (convT w).toInt = 130000 ↔ w = 0xFFFF := by
  rw [← scaleRound_eq_span_iff wordMax_le_tSpan, toInt_convT, show tSpan * outScale = 175000 from rfl]
  omega

theorem convH_eq_min_iff (w : Half) : (convH w).toNat = 0 ↔ w = 0 := by
  rw [toNat_convH, scaleRound_eq_zero_iff wordMax_le_hSpan]

theorem convH_eq_max_iff (w : Half) : (convH w).toNat = 100000 ↔ w = 0xFFFF := by
  rw [toNat_convH]
  exact scaleRound_eq_span_iff wordMax_le_hSpan w

/-- Settles O58: the error is that of the rounding, and only the end words scale to the ends. -/
theorem conversionAccuracy : Obligations.ConversionAccuracy := by
  unfold Obligations.ConversionAccuracy
  exact ⟨convT_error, convH_error, conversion_range,
    fun w => ⟨convT_eq_min_iff w, convT_eq_max_iff w, convH_eq_min_iff w, convH_eq_max_iff w⟩⟩

/-! ## Strict increase

A step of the word is exactly 175000/65535 or 100000/65535 output units (R114); the rounding errors at its two ends
together move it by less than one unit. -/

theorem convT_lt_of_lt {v w : Half} (h : v.toNat < w.toNat) : (convT v).toInt < (convT w).toInt := by
  have hlt := scaleRound_lt_of_lt wordMax_le_tSpan h
  rw [toInt_convT, toInt_convT]
  omega

theorem convH_lt_of_lt {v w : Half} (h : v.toNat < w.toNat) : (convH v).toNat < (convH w).toNat := by
  rw [toNat_convH, toNat_convH]
  exact scaleRound_lt_of_lt wordMax_le_hSpan h

theorem convT_step {v w : Half} (h : v.toNat + 1 = w.toNat) :
    (convT w).toInt - (convT v).toInt = 2 ∨ (convT w).toInt - (convT v).toInt = 3 := by
  have hv := scaleRound_tSpan_bounds v
  have hw := scaleRound_tSpan_bounds w
  rw [toInt_convT, toInt_convT]
  omega

theorem convH_step {v w : Half} (h : v.toNat + 1 = w.toNat) :
    (convH w).toNat = (convH v).toNat + 1 ∨ (convH w).toNat = (convH v).toNat + 2 := by
  have hv := scaleRound_hSpan_bounds v
  have hw := scaleRound_hSpan_bounds w
  rw [toNat_convH, toNat_convH]
  omega

theorem convT_injective : Function.Injective convT := by
  intro v w heq
  apply scaleRound_injective wordMax_le_tSpan
  have htoInt := congrArg BitVec.toInt heq
  rw [toInt_convT, toInt_convT] at htoInt
  omega

theorem convH_injective : Function.Injective convH := by
  intro v w heq
  apply scaleRound_injective wordMax_le_hSpan
  rw [← toNat_convH, ← toNat_convH, heq]

/-- Settles O59: a step of the word is worth more than one unit in both outputs, and the rounding cannot undo it. -/
theorem conversionStrictlyIncreasing : Obligations.ConversionStrictlyIncreasing := by
  unfold Obligations.ConversionStrictlyIncreasing
  exact ⟨fun _ _ h => ⟨convT_lt_of_lt h, convH_lt_of_lt h⟩, fun _ _ h => ⟨convT_step h, convH_step h⟩,
    convT_injective, convH_injective⟩

end Sys2Proof.Machine

/-! # Proofs: the host requests

A request is its acceptance, one measurement cycle, and one of two ends (R117 to R124). Each part is a run between two
states written out in full, and the whole is their composition. -/

namespace Sys2Proof.Machine

/-! ## The codes of a request's kind (R55, R57) -/

theorem ReqOp.code_ofCode : ∀ c : BitVec 1, (ReqOp.ofCode c).code = c := by decide

theorem reading_ofCode (c : BitVec 1) (f : Frame) :
    reading (.ofCode c) f = if c = 0 then convT f.tword else convH f.hword := by
  rw [ReqOp.ofCode]
  split <;> rfl

theorem faultCodeOf_ofCode (c : BitVec 1) :
    faultCodeOf (.ofCode c) = if c = 0 then .tempCrcFail else .humCrcFail := by
  rw [ReqOp.ofCode]
  split <;> rfl

theorem faultCodeOf_code (op : ReqOp) : (faultCodeOf op).code = if op = .rdt then 1 else 2 := by cases op <;> rfl

/-! ## One step of each state of the request (R117, R120, R121, R130) -/

section
variable {s : State} (hrst : s.sample.rst = false)
include hrst

theorem step_idle_request {op : ReqOp} (hs : s.st = .idle) (hext : s.ext = none) (hv : s.sample.reqValid = true)
    (hop : ReqOp.ofCode s.sample.reqOp = op) :
    step s = .next (((s.setReqQ op).goto .measCmd).record (.accepted op)).tick := by
  subst hop
  exact step_of_act_next hrst (by rw [act_idle_request hs hext hv, acceptRequest_idle hs])

theorem step_idle_quiet (hs : s.st = .idle) (hext : s.ext = none) (hv : s.sample.reqValid = false) :
    step s = .next s.tick :=
  step_of_act_next hrst (act_idle_quiet hs hext hv)

theorem step_resp (hs : s.st = .resp) :
    step s = .next ((s.goto .idle).record (.responded s.reqQ s.cachedValue)).tick :=
  step_of_act_next hrst (act_resp hs)

theorem step_esc {code : FaultCode} (hs : s.st = .esc) (hcode : faultCodeOf s.reqQ = code) :
    step s = .next (raiseFault code s).tick := by
  subst hcode
  exact step_of_act_next hrst (act_esc hs)

theorem step_fault (hs : s.st = .fault) : step s = .next s.tick := step_of_act_next hrst (act_fault hs)

end

/-- The rest of a run without reset. -/
theorem noReset_step {s t : State} {k : Nat} (hnr : NoReset s (k + 1)) (hstep : step s = .next t) : NoReset t k :=
  noReset_run (Nat.add_comm k 1 ▸ hnr) (run_one hstep)

/-- After a fault no register changes without a reset (R130). -/
theorem run_fault {s : State} {k : Nat} (hs : s.st = .fault) (hnr : NoReset s k) : run k s = .next (s.ticks k) := by
  refine run_trajectory (f := s.ticks) fun j hj => ?_
  rw [State.ticks_succ]
  exact step_fault ((s.ticks_sample j).symm ▸ hnr j hj) hs

/-! ## Acceptance (R117, R123) -/

section
variable {s : State} (op : ReqOp)

theorem exec_request : exec op.instr s = .next (acceptRequest op s) := by cases op <;> rfl

theorem exec_request_idle (hs : s.st = .idle) :
    exec op.instr s = .next (((s.setReqQ op).goto .measCmd).record (.accepted op)) := by
  rw [exec_request, acceptRequest_idle hs]

theorem exec_request_busy (hs : s.st ≠ .idle) : exec op.instr s = .next s := by
  rw [exec_request, acceptRequest_busy hs]

end

/-- Settles O15: executing a request is `acceptRequest`, which acts in `S_IDLE` alone. -/
theorem hostRequestsStartCycle : Obligations.HostRequestsStartCycle := by
  unfold Obligations.HostRequestsStartCycle
  exact fun s => ⟨fun hs => ⟨exec_request_idle .rdt hs, exec_request_idle .rdh hs⟩,
    fun hs => ⟨exec_request_busy .rdt hs, exec_request_busy .rdh hs⟩⟩

/-- Settles O21: the step accepts the request on the port or keeps the registers, and the ports offer acceptance
alone. -/
theorem stepInIdle : Obligations.StepInIdle := by
  unfold Obligations.StepInIdle
  intro s hrst hs hext
  refine ⟨fun hv hop => step_idle_request (op := .rdt) hrst hs hext hv (by rw [hop]; rfl),
    fun hv hop => step_idle_request (op := .rdh) hrst hs hext hv (by rw [hop]; rfl),
    step_idle_quiet hrst hs hext, ?_⟩
  simp [outputs, State.commandOut, State.readOut, hs, hext]

/-! ## The two ends of a request (R120, R121) -/

/-- The response port in `S_RESP` (R56, R58). -/
theorem outputs_of_resp {s : State} (hs : s.st = .resp) :
    (outputs s).rspValid = true ∧ (outputs s).rspOp = some s.reqQ.code ∧
      (outputs s).rspData = some s.cachedValue := by
  simp [outputs, hs]

/-- Settles O29: the response is on the port in `S_RESP`, and the step leaves that state. -/
theorem stepInResp : Obligations.StepInResp := by
  unfold Obligations.StepInResp
  intro s hrst hs
  obtain ⟨hvalid, hop, hdata⟩ := outputs_of_resp hs
  refine ⟨⟨_, step_resp hrst hs, rfl⟩, hvalid, ?_, ?_⟩
  all_goals
    intro hq
    rw [hop, hdata, State.cachedValue, hq]
    exact ⟨rfl, rfl⟩

/-- Settles O30: the step raises the fault with the accessor's code, and nothing changes after it. -/
theorem stepInEsc : Obligations.StepInEsc := by
  unfold Obligations.StepInEsc
  intro s hs
  refine ⟨fun hrst => ⟨fun hq => ⟨_, step_esc (code := .tempCrcFail) hrst hs (by rw [hq]; rfl)⟩,
    fun hq => ⟨_, step_esc (code := .humCrcFail) hrst hs (by rw [hq]; rfl)⟩⟩,
    validOutputsLow_of_mem (by simp [hs]), fun h => ?_, fun k hnr => ?_⟩
  · have hfault : s.fault = false := by simp [← Bool.not_eq_true, h.fault_iff, hs]
    have hcode : s.faultCode = .noFault := by simp [h.fault_code, hs]
    exact ⟨hfault, congrArg FaultCode.code hcode⟩
  · have hstep := step_esc (noReset_first hnr) hs rfl
    exact ⟨_, (run_succ hstep k).trans (run_fault rfl (noReset_step hnr hstep)), rfl, rfl, rfl,
      faultCodeOf_code s.reqQ⟩

/-! ## The request up to its frame (R83) -/

theorem State.ticks_one (s : State) : s.ticks 1 = s.tick := s.ticks_succ 0

theorem State.ticks_ticks (s : State) (a b : Nat) : (s.ticks a).ticks b = s.ticks (a + b) := by
  simp [State.ticks, Nat.add_assoc]

theorem runsBusy_measCmd {s : State} {a : Nat} (hs : s.st = .measCmd) (hnr : NoReset s a)
    (htakes : CommandTakes s 0 a) :
    RunsBusy s a ((((s.busWrite 0x2400).setDly Config.measSettleTicks).goto .measWait).ticks a) :=
  runsBusy_command (follow := fun s => ((s.busWrite 0x2400).setDly Config.measSettleTicks).goto .measWait)
    (by simp [hs]) hnr htakes fun j hrst hdone => by rw [step_measCmd hrst hs hdone, State.ticks_succ]; rfl

/-- `S_CHK_T` of a request of kind op that was accepted in s and whose frame f has arrived. -/
def State.requestFramed (s : State) (op : ReqOp) (f : Frame) : State :=
  { s with
    st := .chkT, dly := 0, rxi := 5, frame := f, reqQ := op
    log := s.log ++ [.accepted op] ++ [.busWrite 0x44 0x24 0x00] ++ [.busRead 0x44 f.bytes] }

/-- The log of a request once its end is recorded (log entry 6). -/
theorem State.requestFramed_log_append (s : State) (op : ReqOp) (f : Frame) (e : Event) :
    (s.requestFramed op f).log ++ [e] =
      s.log ++ [.accepted op, .busWrite 0x44 0x24 0x00, .busRead 0x44 f.bytes, e] := by
  simp [State.requestFramed]

/-- From the acceptance to the last byte: the four states of R83 before the checks. -/
theorem run_request_framed {s : State} {a b : Nat} {f : Frame} (hs : s.st = .idle) (hext : s.ext = none)
    (hv : s.sample.reqValid = true) (hnr : NoReset s (1 + a + (Config.measSettleTicks + 1) + b))
    (htakes : CommandTakes s 1 a) (hread : ReadTakes s (1 + a + (Config.measSettleTicks + 1)) b f.bytes) :
    run (1 + a + (Config.measSettleTicks + 1) + b) s =
      .next ((s.requestFramed (.ofCode s.sample.reqOp) f).ticks (1 + a + (Config.measSettleTicks + 1) + b)) := by
  have hrst : s.sample.rst = false := noReset_first (noReset_mono (a := 0 + 1) hnr (by omega))
  have haccept := run_one (step_idle_request hrst hs hext hv rfl)
  have hsent := (run_add haccept a).trans
    (runsBusy_measCmd rfl (noReset_run (noReset_mono hnr (by omega)) haccept) (commandTakes_run haccept htakes)).run_eq
  have hsettled := (run_add hsent (Config.measSettleTicks + 1)).trans
    (run_measWait (noReset_run (noReset_mono hnr (Nat.le_add_right _ _)) hsent) rfl)
  obtain ⟨m, rfl⟩ := Nat.exists_eq_add_of_le' hread.1
  refine ((run_add hsettled (m + 1)).trans
    (run_frameRd rfl rfl (readTakes_run hsettled hread) (noReset_run hnr hsettled))).trans ?_
  rw [← State.ticks_ticks _ _ (m + 1), ← State.ticks_ticks _ _ (Config.measSettleTicks + 1),
    ← State.ticks_ticks _ 1 a, State.ticks_one]
  rfl

/-! ## The two outcomes of the checks (R92, R118, R119) -/

/-- The three steps to `S_RESP` write the pair only. Here and below the words are variables, which keeps the kernel from
computing them. -/
theorem converted_ticks (s : State) (temp hum : Word) :
    ((((s.goto .chkH).tick.goto .conv).tick.setReading temp hum).goto .resp).tick =
      ((s.setReading temp hum).goto .resp).ticks 3 := by
  rw [State.ticks_succ, State.ticks_succ, State.ticks_one]
  rfl

/-- The step of the response writes `ST` only. -/
theorem responded_ticks (s : State) (temp hum data : Word) :
    (.next (((((s.setReading temp hum).goto .resp).ticks 3).goto .idle).record (.responded s.reqQ data)).tick : Result) =
      .next ((((s.setReading temp hum).goto .idle).record (.responded s.reqQ data)).ticks 4) := by
  rw [State.ticks_succ _ 3]
  rfl

@[simp] theorem State.ticks_reqQ (s : State) (k : Nat) : (s.ticks k).reqQ = s.reqQ := rfl

@[simp] theorem State.ticks_cachedValue (s : State) (k : Nat) : (s.ticks k).cachedValue = s.cachedValue := rfl

/-- What `S_RESP` answers after the conversion of a frame (R56, R118, R119). -/
theorem cachedValue_of_setReading (s : State) (f : Frame) (k : Nat) :
    (((s.setReading (convT f.tword) (convH f.hword)).goto .resp).ticks k).cachedValue = reading s.reqQ f := by
  rw [State.ticks_cachedValue, State.cachedValue, State.goto_reqQ, State.setReading_reqQ]
  cases s.reqQ with
  | rdt => rw [reading, State.goto_tempOut, State.setReading_tempOut]
  | rdh => rw [reading, State.goto_humOut, State.setReading_humOut]

section
variable {s : State} {f : Frame} (hs : s.st = .chkT) (hframe : s.frame = f)
include hs hframe

/-- A valid frame is stored as the cached pair. -/
theorem run_checks_passed (hnr : NoReset s 3) (hvalid : f.valid = true) :
    run 3 s = .next (((s.setReading (convT f.tword) (convH f.hword)).goto .resp).ticks 3) := by
  subst hframe
  obtain ⟨htemp, hhum⟩ := Bool.and_eq_true_iff.mp hvalid
  have hchkT := step_chkT_passed (noReset_first hnr) hs htemp
  have hnr' := noReset_step hnr hchkT
  have hchkH := step_chkH_passed (noReset_first hnr') rfl hhum
  have hconv := step_conv (noReset_first (noReset_step hnr' hchkH)) rfl
  rw [run_succ hchkT, run_succ hchkH, run_one hconv, converted_ticks]
  simp only [State.tick_frame, State.goto_frame]

/-- A valid frame ends in the response. -/
theorem run_checks_answered (hnr : NoReset s 4) (hvalid : f.valid = true) :
    run 4 s = .next ((((s.setReading (convT f.tword) (convH f.hword)).goto .idle).record
      (.responded s.reqQ (reading s.reqQ f))).ticks 4) := by
  have hresp := run_checks_passed hs hframe (noReset_mono hnr (by omega)) hvalid
  have hend := step_resp (noReset_first (noReset_run (b := 0 + 1) hnr hresp)) rfl
  rw [cachedValue_of_setReading, State.ticks_reqQ, State.goto_reqQ, State.setReading_reqQ] at hend
  exact ((run_add hresp 1).trans (run_one hend)).trans (responded_ticks s _ _ _)

/-- An invalid frame ends in the fault, one step earlier if the temperature field is the invalid one (R131). -/
theorem run_checks_failed {op : ReqOp} (hnr : NoReset s 3) (hop : s.reqQ = op) (hinvalid : f.valid = false) :
    run (if f.tempFieldValid then 3 else 2) s =
      .next ((raiseFault (faultCodeOf op) s).ticks (if f.tempFieldValid then 3 else 2)) := by
  subst hframe hop
  cases htemp : s.frame.tempFieldValid with
  | true =>
    have hhum : ¬ s.frame.humFieldValid = true := by simpa [Frame.valid, htemp] using hinvalid
    have hchkT := step_chkT_passed (noReset_first hnr) hs htemp
    have hnr' := noReset_step hnr hchkT
    have hchkH := step_chkH_failed (noReset_first hnr') rfl hhum
    have hesc := step_esc (noReset_first (noReset_step hnr' hchkH)) rfl rfl
    rw [if_pos rfl, run_succ hchkT, run_succ hchkH, run_one hesc, State.ticks_succ, State.ticks_succ, State.ticks_one]
    rfl
  | false =>
    have hchkT := step_chkT_failed (noReset_first hnr) hs (by simp [htemp])
    have hesc := step_esc (noReset_first (noReset_step hnr hchkT)) rfl rfl
    rw [if_neg Bool.false_ne_true, run_succ hchkT, run_one hesc, State.ticks_succ, State.ticks_one]
    rfl

end

/-- Settles O38: the cycle up to the frame, the checks, and the end that they lead to. -/
theorem requestRunsWholeCycle : Obligations.RequestRunsWholeCycle := by
  unfold Obligations.RequestRunsWholeCycle
  intro s a b f hs hext hv hnr htakes hread
  have hframed := run_request_framed hs hext hv (noReset_mono hnr (Nat.le_add_right _ 4)) htakes hread
  have hnr4 := noReset_run hnr hframed
  have hnr3 := noReset_mono hnr4 (Nat.le_succ 3)
  rw [← reading_ofCode, ← faultCodeOf_ofCode]
  refine ⟨fun hvalid => ⟨?_, ?_⟩, fun hinvalid => ?_⟩
  · have hresp := (run_add hframed 3).trans (run_checks_passed (f := f) rfl rfl hnr3 hvalid)
    obtain ⟨hrsp, hop, hdata⟩ := outputs_of_resp (s := State.ticks (State.goto _ .resp) 3) rfl
    rw [cachedValue_of_setReading] at hdata
    exact ⟨_, hresp, hrsp, hop.trans (congrArg some (ReqOp.code_ofCode _)), hdata⟩
  · have hend := (run_add hframed 4).trans (run_checks_answered (f := f) rfl rfl hnr4 hvalid)
    exact ⟨_, hend, rfl, rfl, rfl, rfl, State.requestFramed_log_append _ _ _ _⟩
  · have hfault := (run_add hframed _).trans (run_checks_failed rfl rfl hnr3 rfl hinvalid)
    exact ⟨_, hfault, rfl, rfl, rfl, rfl, rfl, rfl, State.requestFramed_log_append _ _ _ _⟩

/-! ## Every accepted request but the one in progress has ended (R124) -/

/-- Whether a request is being served. -/
def Phase.serving : Phase → Bool
  | .pending _ | .measuring _ | .framed _ _ => true
  | .start | .resetSent | .statusSent | .ready | .down => false

theorem State.serving_phase (s : State) : s.phase.serving = s.st.serving := by
  rw [State.phase]
  cases s.st <;> rfl

/-- The events that may come next: an acceptance begins the serving of a request, and an end ends it. -/
theorem Advances.serving_balance {p q : Phase} {e : Event} (h : Advances p e q) :
    p.serving.toNat + e.isAccepted.toNat = e.isEnd.toNat + q.serving.toNat := by
  cases h <;> rfl

theorem countP_accepted_of_replay {log : List Event} {p : Phase} (h : replay log = some p) :
    log.countP Event.isAccepted = log.countP Event.isEnd + p.serving.toNat := by
  induction log using List.reverseRecOn generalizing p with
  | nil => cases h; rfl
  | append_singleton log e ih =>
    obtain ⟨q, hq, hadv⟩ := replay_append_one.mp h
    have hbalance := hadv.serving_balance
    have hlog := ih hq
    have hone (P : Event → Bool) : (log ++ [e]).countP P = log.countP P + (P e).toNat := by
      rw [List.countP_append, List.countP_singleton, Bool.toNat, Bool.cond_eq_ite]
    rw [hone, hone]
    omega

/-- Settles O46: the log of a run replays, and its counts differ by the request that its phase is serving. -/
theorem requestsEndOnce : Obligations.RequestsEndOnce := by
  unfold Obligations.RequestsEndOnce
  intro s h
  rw [countP_accepted_of_replay h.log_is_run, State.serving_phase, Bool.toNat, Bool.cond_eq_ite]

end Sys2Proof.Machine

/-! # Proofs: the terminal state

`S_FAULT` is left by a reset alone (R130), and the fault stays on its port with the accessor's code (R22, R23). -/

namespace Sys2Proof.Machine

theorem faultCodeOf_ne_noFault (op : ReqOp) : faultCodeOf op ≠ .noFault := by cases op <;> decide

/-- `FAULT` is 1 in `S_FAULT` (R22). -/
theorem ControlInv.fault_eq_true {s : State} (h : ControlInv s) (hs : s.st = .fault) : s.fault = true :=
  h.fault_iff.mpr hs

/-- `FAULT_CODE` in `S_FAULT` is the accessor's (R23). -/
theorem ControlInv.faultCode_eq {s : State} (h : ControlInv s) (hs : s.st = .fault) :
    s.faultCode = faultCodeOf s.reqQ :=
  h.fault_code.trans (if_pos hs)

/-- Settles O31: every step without reset is the clock's tick alone, no valid output is 1 in `S_FAULT`, the control
invariant fixes the fault that is shown, and a reset step starts a new run. -/
theorem faultIsTerminal : Obligations.FaultIsTerminal := by
  unfold Obligations.FaultIsTerminal
  intro s k hs
  refine ⟨run_fault hs, validOutputsLow_of_mem (by simp [hs]), rfl, fun h => ⟨h.fault_eq_true hs, ?_⟩,
    fun hrst => ⟨resetStep s, step_of_rst hrst, rfl, rfl⟩⟩
  rw [h.faultCode_eq hs]
  exact faultCodeOf_ne_noFault s.reqQ

end Sys2Proof.Machine

/-! # Proofs: reset in any state, and requests in a busy one

A sampled `rst` goes before everything else (R77, R140); a request outside `S_IDLE` is lost (R123, R153). -/

namespace Sys2Proof.Machine

/-- Settles O48: outside `S_IDLE` the two request ports are not awaited, so the step reads neither of them and drops the
sample they stand in. -/
theorem busyRequestsIgnored : Obligations.BusyRequestsIgnored := by
  unfold Obligations.BusyRequestsIgnored
  intro s i rest v op hs hi
  have hsample : s.sample = i := by rw [State.sample, hi]
  have hawaited : SameAwaited s ({ i with reqValid := v, reqOp := op } :: rest) :=
    { later := by rw [hi]; rfl
      rst := by rw [hsample]; rfl
      cmdDone := fun _ => by rw [hsample]; rfl
      rxValid := fun _ => by rw [hsample]; rfl
      rxData := fun _ => by rw [hsample]; rfl
      reqValid := fun hidle => absurd hidle hs
      reqOp := fun hidle => absurd hidle hs }
  exact ⟨step_withSamples hawaited, reqReady_eq_false hs⟩

/-- Settles O6: a step that samples `rst = 1` is the reset step, whatever state it is taken in. -/
theorem rstResetsInAnyState : Obligations.RstResetsInAnyState := by
  unfold Obligations.RstResetsInAnyState
  intro s hrst
  exact ⟨resetStep s, step_of_rst hrst, rfl, rfl, rfl, rfl, rfl⟩

end Sys2Proof.Machine

/-! # Proofs: the decoder and the encoder are inverse

Each format decodes exactly its own encodings: a code to the command that has it (R49, R50), a request byte to the request of
its one bit (R54, R55). The two formats differ in length (R61), so decoding to an instruction and being its encoding are the
same. -/

namespace Sys2Proof

/-! ## The encoder -/

theorem encode_of_commandCode {i : Instr} {code : Half} (h : i.commandCode = some code) : encode i = commandBytes code := by
  rw [encode, h]

theorem encode_requestOf (op : BitVec 1) : encode (requestOf op) = [requestByte op] := by
  revert op
  decide

/-- An instruction without a command code is a request (R55). -/
theorem Instr.eq_requestOf_of_commandCode_eq_none {i : Instr} (h : i.commandCode = none) : ∃ op, i = requestOf op := by
  cases i
  case rdt => exact ⟨0, rfl⟩
  case rdh => exact ⟨1, rfl⟩
  all_goals cases h

/-! ## The decoder of each format -/

theorem decodeCommand_eq_ok_iff {code : Half} {i : Instr} : decodeCommand code = .ok i ↔ i.commandCode = some code := by
  have hok : decodeCommand code = .ok i ↔ commandOf code = some i := by
    cases h : commandOf code <;> simp [decodeCommand, h]
  exact hok.trans ⟨commandCode_of_commandOf, commandOf_of_commandCode⟩

/-- A byte below 2 is the byte of its bit 0 (R54). -/
theorem requestByte_setWidth {b : Byte} (h : b.toNat < 2) : requestByte (b.setWidth 1) = b := by
  apply BitVec.eq_of_toNat_eq
  simp only [requestByte, BitVec.toNat_setWidth]
  omega

theorem decodeRequest_eq_ok {b : Byte} {i : Instr} (h : decodeRequest b = .ok i) :
    ∃ op, i = requestOf op ∧ b = requestByte op := by
  unfold decodeRequest at h
  split at h
  next hb =>
    cases h
    exact ⟨b.setWidth 1, rfl, (requestByte_setWidth hb).symm⟩
  next => cases h

/-! ## The two laws -/

/-- Settles O3: two bytes decode to the command that has their code, one byte to the request it is the byte of, and no other
number of bytes decodes. -/
theorem encodingIsUnique : Obligations.EncodingIsUnique := by
  unfold Obligations.EncodingIsUnique
  intro bytes i h
  match bytes with
  | [] => cases h
  | [b] =>
    obtain ⟨op, rfl, rfl⟩ := decodeRequest_eq_ok h
    exact encode_requestOf op
  | [b0, b1] =>
    have hcode : i.commandCode = some (b0 ++ b1) := decodeCommand_eq_ok_iff.mp h
    rw [encode_of_commandCode hcode, commandBytes_append]
  | _ :: _ :: _ :: _ => cases h

/-- Settles O2: an instruction with a command code is the command of that code, and one without is a request. -/
theorem decodeInvertsEncode : Obligations.DecodeInvertsEncode := by
  unfold Obligations.DecodeInvertsEncode
  intro i
  cases hcode : i.commandCode with
  | some code => rw [encode_of_commandCode hcode, decode_commandBytes, decodeCommand_eq_ok_iff.mpr hcode]
  | none =>
    obtain ⟨op, rfl⟩ := Instr.eq_requestOf_of_commandCode_eq_none hcode
    rw [encode_requestOf, decode_requestByte]

end Sys2Proof
